-- ==== Sys2Proof/Word.lean ====
section
/-! DEFINITION. The word types of the model: what the manual treats as bits. Numbers that are counted, indexed or
compared (page numbers, cycle counts, indexes) are plain naturals. -/
namespace Sys2Proof

/-- One byte of a message, a descriptor or memory. -/
abbrev Byte := BitVec 8
/-- A string of bytes, lowest address first. -/
abbrev Bytes := List Byte
/-- One 32-bit register word (R453). -/
abbrev Word := BitVec 32
/-- One 64-bit counter (R94, R458). -/
abbrev Word64 := BitVec 64

end Sys2Proof
end

