-- ==== Sys2Proof/Syntax.lean ====
section
/-! DEFINITION. The commands of the module: one constructor per row of spec/opcode_table.json, with the operands that the
outside world supplies. Operands that the spec's text does not name are DESIGN CHOICE (notes/assumptions/4.md): what the
module cannot know by itself (a time, a measurement, an arriving body, which unit) is an operand, and what its own state
determines is not. -/
namespace Sys2Proof

/-- The two host links (R428). -/
inductive Link where
  | a | b
  deriving DecidableEq, Repr

/-- The clocks that R359's table names. -/
inductive Clock where
  /-- One mesh oscillator. -/
  | osc (o : Nat)
  /-- DCLK of a stack. -/
  | dclk (s : Nat)
  /-- The lane clock of an engine. -/
  | lane (e : Nat)
  /-- A PCIe link's clock. -/
  | pcie (l : Link)
  | shclk
  | aclk
  deriving DecidableEq, Repr

/-- A defect that a test or an event has found: KIND, SOURCE, UNIT and DETAIL of R400. -/
structure Found where
  kind : Nat
  source : Nat
  unit : Nat
  detail : Nat
  deriving DecidableEq, Repr

/-- What the board's and the wafer's sensors measured over the tick that ends at a boundary (R373, R382, R385): input power
in 10 W and input voltage in 10 mV, the measured load that is fixed, that scales with MCLK, and that scales with MCLK and duty
(R373's shares, in W), coolant and junction temperatures. -/
structure Meas where
  power : Nat
  vin : Nat
  wFixed : Nat
  wMclk : Nat
  wArray : Nat
  inlet : Nat
  outlet : Nat
  flow : Nat
  tileC : List Nat
  spineC : List Nat
  quadC : List Nat
  deriving DecidableEq, Repr

/-- The commands. -/
inductive Instr where
  /-- TICK_BOUNDARY (R325): the next grid point, with the measurements of the tick that ends. -/
  | tickBoundary (m : Meas)
  /-- CLOSE_POINT (R324): the close point of the next boundary. -/
  | closePoint
  /-- SLOW_FLAG (R339): the slow test of a core. -/
  | slowFlag (core : Nat)
  /-- SLICE_HOT (R193): cycles of this tick in which the slice's queue exceeded DEPTH, and the partitions with a request waiting there. -/
  | sliceHot (slice cycles : Nat) (waiting : List Nat)
  /-- LINK_HOT (R212): the same for a fabric link. -/
  | linkHot (sw port cycles : Nat) (waiting : List Nat)
  /-- SE_SATURATED (R83): a tick in which every general entry of the core was in use throughout. -/
  | seSaturated (core : Nat)
  /-- TASK_COMPLETE (R85): the GTC at which the core's tick task completes. -/
  | taskComplete (core at_ : Nat)
  /-- DOORBELL (R136): a write to DOORBELLn. -/
  | doorbell (link : Link) (ctx : Nat) (value : Word)
  /-- DESCRIPTOR_FETCH (R137): the fetch of the group that holds the context's CI. -/
  | descriptorFetch (ctx : Nat)
  /-- NOP (R156): the descriptor at the context's CI starts. -/
  | nop (ctx : Nat)
  /-- STEP (R156). -/
  | step (ctx : Nat)
  /-- GEMM (R142). -/
  | gemm (ctx : Nat)
  /-- GEMM_GROUPED (R143). -/
  | gemmGrouped (ctx : Nat)
  /-- ATTN (R145). -/
  | attn (ctx : Nat)
  /-- ELEM (R146). -/
  | elem (ctx : Nat)
  /-- NORM (R147). -/
  | norm (ctx : Nat)
  /-- SOFTMAX (R148). -/
  | softmax (ctx : Nat)
  /-- REDUCE (R149). -/
  | reduce (ctx : Nat)
  /-- GATHER (R150). -/
  | gather (ctx : Nat)
  /-- SCATTER_ADD (R150). -/
  | scatterAdd (ctx : Nat)
  /-- MOE_DISPATCH (R151). -/
  | moeDispatch (ctx : Nat)
  /-- MOE_COMBINE (R152). -/
  | moeCombine (ctx : Nat)
  /-- QUANT (R153). -/
  | quant (ctx : Nat)
  /-- DEQUANT (R153). -/
  | dequant (ctx : Nat)
  /-- RELAY (R153). -/
  | relay (ctx : Nat)
  /-- TRANSPOSE (R153). -/
  | transpose (ctx : Nat)
  /-- SAMPLE (R154). -/
  | sample (ctx : Nat)
  /-- FULL_REDUCE (R155). -/
  | fullReduce (ctx : Nat)
  /-- BROADCAST (R155). -/
  | broadcast (ctx : Nat)
  /-- ALLGATHER (R155). -/
  | allgather (ctx : Nat)
  /-- MIGRATE_PROMOTE (R190). -/
  | migratePromote (ctx : Nat)
  /-- MIGRATE_DEMOTE (R190). -/
  | migrateDemote (ctx : Nat)
  /-- MIGRATE_SEAL (R189). -/
  | migrateSeal (ctx : Nat)
  /-- OPERATOR_COMPLETE (R140): an operator in flight completes. -/
  | operatorComplete (ctx qindex : Nat)
  /-- BUDGET (R162): the boundary at which an operator has run its TICK_BUDGET. -/
  | budget (ctx qindex : Nat)
  /-- ENABLE (R158): a write of CTX_CMD.ENABLE. -/
  | enable (link : Link) (ctx : Nat)
  /-- CONTEXT_RESET (R165): a write of CTX_CMD.RESET. -/
  | contextReset (link : Link) (ctx : Nat)
  /-- DISABLE (R157): a write of CTX_CMD.DISABLE. -/
  | disable (link : Link) (ctx : Nat)
  /-- STRAND_FAULT (R80): a strand of an operator's launch faults. -/
  | strandFault (core ctx qindex strand : Nat)
  /-- ARRAY_CHECK (R67): a residue mismatch at an array site. -/
  | arrayCheck (core site : Nat)
  /-- WS_ECC_ERROR (R71): an ECC error of a working store sector. -/
  | wsEccError (core sector : Nat) (uncorrectable : Bool)
  /-- HACC_UPDATE (R112): one hash accumulator update. -/
  | haccUpdate (core : Nat) (key value : Word)
  /-- READ_REQUEST (R81): a stream engine read; a descriptor fetch or a general read, perhaps of the next task's inputs. -/
  | readRequest (core addr len : Nat) (desc forNext : Bool)
  /-- READ_RESPONSE (R81): a read response at the port that owns the tag. -/
  | readResponse (tag latency status : Nat)
  /-- WRITE_BURST (R84): a write burst at its target port; `whole` when the whole packet arrived and passed HCRC. -/
  | writeBurst (src dst addr : Nat) (data : Bytes) (whole : Bool)
  /-- WRITE_ACK (R84): a write acknowledgement at its source port. -/
  | writeAck (src : Nat)
  /-- LINK_REPLAY (R223): a packet that failed HCRC is replayed on a link; `ok` when the replay passes. -/
  | linkReplay (sw port : Nat) (ok : Bool)
  /-- SEAM_REPLAY (R222): a seam flit is replayed. -/
  | seamReplay (tile dir group wire : Nat)
  /-- ALLOC (R496): a write of MEM.CMD_OP = 1. -/
  | alloc (link : Link)
  /-- FREE (R496): a write of MEM.CMD_OP = 2. -/
  | free (link : Link)
  /-- LOAD_HOOD (R186): a write of MEM.CMD_OP = 3. -/
  | loadHood (link : Link)
  /-- MAP_REMOTE (R496): a write of MEM.CMD_OP = 4. -/
  | mapRemote (link : Link)
  /-- INSTALL_HOOD (R187): a write of MEM.CMD_OP = 5. -/
  | installHood (link : Link)
  /-- ERASE_HOOD (R187): a write of MEM.CMD_OP = 6. -/
  | eraseHood (link : Link)
  /-- UNDEFINED_MEM_CMD (R496): a write of another code to MEM.CMD_OP. -/
  | undefinedMemCmd (link : Link) (op : Nat)
  /-- MEM_CMD_COMPLETE (R496): the running memory command reaches its completion. -/
  | memCmdComplete
  /-- LOAD_COMPLETE (R186): the running hood load ends. -/
  | loadComplete
  /-- MIGRATION_PAGE_DONE (R190): a page copy has been committed. -/
  | migrationPageDone (page : Nat)
  /-- MEMORY_ECC_ERROR (R195): an ECC error at a slice or DRAM channel, at interleave position `pos`. -/
  | memoryEccError (dram : Bool) (unit pos : Nat) (uncorrectable : Bool)
  /-- REFETCH_DONE (R195): a refetched page has landed. -/
  | refetchDone (page : Nat)
  /-- POUNCE_SCRUB (R194): one tick's pounce budget. -/
  | pounceScrub
  /-- CHANNEL_DOWN (R195): a DRAM channel stops answering. -/
  | channelDown (ch : Nat)
  /-- ARM (R235): a write of PLANp_CMD.ARM. -/
  | arm (link : Link) (p : Nat)
  /-- ARM_NEXT (R235): a write of PLANp_CMD.ARM_NEXT. -/
  | armNext (link : Link) (p : Nat)
  /-- DISARM (R235): a write of PLANp_CMD.DISARM. -/
  | disarm (link : Link) (p : Nat)
  /-- RETRY (R249): a write of PLANp_CMD.RETRY. -/
  | retry (link : Link) (p : Nat)
  /-- BATT (R238): a batt header reaches its carding unit. -/
  | batt (hdr : Bytes)
  /-- BATT_PAYLOAD_END (R238): the last payload byte of a batt in carding, by partition and plan entry. -/
  | battPayloadEnd (p idx : Nat) (payload : Bytes)
  /-- BATT_COMMIT (R240): every output burst of the batt has been acknowledged. -/
  | battCommit (p idx : Nat)
  /-- CHAIN_FORWARD (R244): the core at a chain position forwards a 1 KiB unit. -/
  | chainForward (p idx pos unit : Nat)
  /-- CHAIN_COMMIT_NOTICE (R244): the commit notice reaches the next chain position. -/
  | chainCommitNotice (p idx : Nat)
  /-- NAK (R249): a NAK from a weight server. -/
  | nak (body : Bytes)
  /-- BATT_MISSING (R249): the missing test of an absent batt. -/
  | battMissing (p idx : Nat)
  /-- BATT_DEADLINE (R249): the deadline test of an absent batt. -/
  | battDeadline (p idx : Nat)
  /-- BARRIER_ARRIVE (R245): the arrival test of a core. -/
  | barrierArrive (core : Nat)
  /-- BARRIER_COMPLETE (R328): the barrier of a partition completes. -/
  | barrierComplete (p : Nat)
  /-- LOCAL_SEGMENT (R261): a core writes a local segment of the tree's FULL_REDUCE. -/
  | localSegment (core tree seg : Nat)
  /-- SEG (R270): a SEG message from an engine group. -/
  | seg (group : Nat) (body : Bytes)
  /-- END (R267): an END message. -/
  | endMsg (group : Nat) (body : Bytes)
  /-- WIN (R265): a WIN message. -/
  | win (group : Nat) (body : Bytes)
  /-- DOWN (R268): a DOWN message. -/
  | down (group : Nat) (body : Bytes)
  /-- DOWN_END (R267): a DOWN_END message. -/
  | downEnd (group : Nat) (body : Bytes)
  /-- SEGMENT_RELEASE (R264): the links acknowledge the lowest unreleased segment. -/
  | segmentRelease (tree : Nat)
  /-- MISSING_DEADLINE (R271): the deadline test of a tree's open invocation. -/
  | missingDeadline (tree : Nat)
  /-- TREE_CFG_WRITE (R266): a write to a slot register of FUL#q. -/
  | treeCfgWrite (link : Link) (q off : Nat) (value : Word)
  /-- FLIT_RECEIVE (R293): a flit arrives at an engine. -/
  | flitReceive (engine : Nat) (flit : Bytes)
  /-- REPLAY_REQ (R294): a REPLAY_REQ arrives. -/
  | replayReq (engine ack : Nat)
  /-- ACK_TIMEOUT (R294): a DATA flit stays unacknowledged for 2 µs. -/
  | ackTimeout (engine : Nat)
  /-- REPLAY_FAIL (R296): a replayed flit fails or is late. -/
  | replayFail (engine : Nat)
  /-- LANE_RETRAIN (R310): a receive lane is selected for retraining. -/
  | laneRetrain (engine lane : Nat)
  /-- LANE_SWAP_REQUEST (R310): a swap request from the far receiver. -/
  | laneSwapRequest (engine x y : Nat)
  /-- LANE_RETRAIN_DONE (R310): a retrained lane rejoins, or fails. -/
  | laneRetrainDone (engine : Nat) (rx : Bool) (lane : Nat) (ok : Bool)
  /-- LIGHT_LOSS (R283): a group's laser input is lost. -/
  | lightLoss (group : Nat)
  /-- RING_UNLOCK (R284): a ring leaves its lock range. -/
  | ringUnlock (engine lane : Nat)
  /-- ENGINE_UP (R308): training ends, with the masks of good lanes. -/
  | engineUp (engine txGood rxGood : Nat) (half : Bool)
  /-- ENGINE_DOWN (R311): an engine goes down. -/
  | engineDown (engine : Nat)
  /-- MESSAGE_RECEIVE (R299): a complete message at an engine group. -/
  | messageReceive (group cls gmsn subkind : Nat) (body : Bytes)
  /-- OFFER (R303): an OFFER. -/
  | offer (group : Nat) (body : Bytes)
  /-- ACCEPT (R303): an ACCEPT. -/
  | accept (group : Nat) (body : Bytes)
  /-- REFUSE (R303): a REFUSE. -/
  | refuse (group : Nat) (body : Bytes)
  /-- CLOSE (R306): a CLOSE. -/
  | close (group : Nat)
  /-- REOFFER (R303): a write of NOL.CONTROL.REOFFER. -/
  | reoffer (link : Link) (group : Nat)
  /-- FAR_LOOP (R312): a FAR_LOOP request or reply. -/
  | farLoop (group : Nat) (body : Bytes)
  /-- LOOPBACK (R312): a write to HB.CONTROL. -/
  | loopback (link : Link) (engine : Nat) (value : Word)
  /-- PEER_MESSAGE (R301): a PEER message. -/
  | peerMessage (group : Nat) (body : Bytes)
  /-- RDATA (R495): an RDATA message. -/
  | rdata (group : Nat) (body : Bytes)
  /-- RREAD_TIMEOUT (R495): 20 µs without an answer to an RREAD. -/
  | rreadTimeout (tag : Nat)
  /-- SYNC (R333): a SYNC, and the local GTC at which it arrives. -/
  | sync (group : Nat) (body : Bytes) (at_ : Nat)
  /-- DELAY_REQ (R333): a DELAY_REQ. -/
  | delayReq (group : Nat) (body : Bytes)
  /-- DELAY_RESP (R333): a DELAY_RESP. -/
  | delayResp (group : Nat) (body : Bytes)
  /-- ARRIVE (R337): an ARRIVE from a child. -/
  | arrive (group : Nat) (body : Bytes)
  /-- RELEASE (R337): a RELEASE. -/
  | release (group : Nat) (body : Bytes)
  /-- ABORT (R338): an ABORT. -/
  | abort (group : Nat) (body : Bytes)
  /-- ABORT_TAKE_EFFECT (R338): the target grid point of an abort. -/
  | abortTakeEffect
  /-- SNAPSHOT (R441): a SNAPSHOT. -/
  | snapshot (body : Bytes)
  /-- GROUP_RESET (R337): a GROUP_RESET. -/
  | groupReset (body : Bytes)
  /-- REMAP (R341): a REMAP. -/
  | remap (group : Nat) (body : Bytes)
  /-- REMAP_TAKE_EFFECT (R340): the boundary at which a REMAP takes effect. -/
  | remapTakeEffect
  /-- SLOW_REPORT (R340): a SLOW_REPORT. -/
  | slowReport (group : Nat) (body : Bytes)
  /-- BATT_FAILURE_NOTICE (R338): a batt failure notice. -/
  | battFailureNotice (group : Nat) (body : Bytes)
  /-- MISSING_CONTRIBUTOR_NOTICE (R272): a missing-contributor notice. -/
  | missingContributorNotice (group : Nat) (body : Bytes)
  /-- SWAP_REQ (R342): a SWAP_REQ. -/
  | swapReq (group : Nat) (body : Bytes)
  /-- SWAP_ACCEPT (R342): a SWAP_ACCEPT. -/
  | swapAccept (group : Nat) (body : Bytes)
  /-- SWAP_REFUSE (R343): a SWAP_REFUSE. -/
  | swapRefuse (group : Nat) (body : Bytes)
  /-- SWAP_COMMIT (R342): a SWAP_COMMIT. -/
  | swapCommit (group : Nat) (body : Bytes)
  /-- HANDOVER_TAKE_EFFECT (R342): the target boundary of a handover. -/
  | handoverTakeEffect
  /-- CROWN_ANNOUNCE (R331): a CROWN_ANNOUNCE. -/
  | crownAnnounce (group : Nat) (body : Bytes)
  /-- CROWN_LOST (R344): the loss test at a grid point. -/
  | crownLost
  /-- SWAP_REQ_CMD (R342): a write of ROLE.CMD. -/
  | swapReqCmd (link : Link) (value : Word)
  /-- MESH_LOCK (R352): the mesh locks `us` after switch-on. -/
  | meshLock (us : Nat)
  /-- LOCK_LOST (R352): lock is lost at an oscillator. -/
  | lockLost (osc : Nat)
  /-- PHASE_LIMIT (R352): the largest neighbour error of a tick. -/
  | phaseLimit (ps : Nat)
  /-- FIFO_OVERRUN (R356): a full FIFO discards an entry, on a path with or without link replay. -/
  | fifoOverrun (kind inst : Nat) (replayed : Bool)
  /-- CDC_TIMEOUT (R359): a clock has stopped. -/
  | cdcTimeout (clock : Clock)
  /-- RESET_NOTIFY (R360): RESET_NOTIFY at the live side of a crossing. -/
  | resetNotify (side : Nat)
  /-- FLUSH_DONE (R360): FLUSH_DONE at the resetting side. -/
  | flushDone (side : Nat)
  /-- INPUT_LOW (R379): low input for 100 µs, in 10 mV. -/
  | inputLow (v : Nat)
  /-- INPUT_LOW_CLEAR (R379): input above 46.0 V for 1 ms. -/
  | inputLowClear (v : Nat)
  /-- INPUT_LOSS (R379): input below 42.0 V for 5 µs. -/
  | inputLoss (v : Nat)
  /-- INPUT_DIP (R379): input above 44.0 V for 1 ms during a ride-through. -/
  | inputDip (v : Nat)
  /-- FLUSH_START (R380): the flush condition of R379 holds. -/
  | flushStart
  /-- FLUSH_COMPLETE (R380): the shelf has programmed everything; whether the input has returned. -/
  | flushComplete (present : Bool)
  /-- EPO (R376): EPO_N is asserted. -/
  | epo
  /-- POWER_PRESENT (R391): 48 V present with EPO_N deasserted. -/
  | powerPresent (v : Nat)
  /-- OPEN_PHASE (R370): a converter phase opens. -/
  | openPhase (tile phase : Nat)
  /-- SENSE_FAIL (R370): a phase's current sense fails. -/
  | senseFail (tile phase : Nat)
  /-- OC_GATE (R371): over-current gating of a tile for a number of control periods. -/
  | ocGate (tile periods : Nat)
  /-- CAP_LOCAL (R374): a write to PWR.CAP_LOCAL. -/
  | capLocal (link : Link) (value : Word)
  /-- GAUGE_SAMPLE (R377): one 1 ms sample: bank voltage in 10 mV, energy drawn since full in J, capacitance in mF. -/
  | gaugeSample (vbank drawn cap : Nat)
  /-- INLET_HIGH (R383): inlet in 0.1 °C and flow in 0.1 L/min. -/
  | inletHigh (inlet flow : Nat)
  /-- JUNCTION_WARN (R383): the hottest junction of a tile, in °C. -/
  | junctionWarn (tile temp : Nat)
  /-- THERMAL_TRIP (R383): the trip comparator fires. -/
  | thermalTrip
  /-- SENSOR_FAIL (R383): a junction sensor fails; a sensor of the same tile reads `other` °C. -/
  | sensorFail (tile other : Nat)
  /-- SWEAT_DROP (R384): the sweatband drop of a tile. -/
  | sweatDrop (tile mv : Nat)
  /-- CLEAR_FAULTS (R375): PMBus CLEAR_FAULTS. -/
  | clearFaults
  /-- STATUS_WORD (R375): PMBus STATUS_WORD. -/
  | statusWord
  /-- READ_VIN (R375): PMBus READ_VIN. -/
  | readVin
  /-- READ_IIN (R375): PMBus READ_IIN. -/
  | readIin
  /-- READ_TEMPERATURE_1 (R375): PMBus READ_TEMPERATURE_1. -/
  | readTemperature1
  /-- READ_PIN (R375): PMBus READ_PIN. -/
  | readPin
  /-- PMBUS_REVISION (R375): PMBus PMBUS_REVISION. -/
  | pmbusRevision
  /-- MFR_ID (R375): PMBus MFR_ID. -/
  | mfrId
  /-- MFR_POWER_CAP (R375): PMBus MFR POWER_CAP, a write of a word or a read. -/
  | mfrPowerCap (value : Option Nat)
  /-- PMBUS_NACK (R375): another PMBus command code. -/
  | pmbusNack (code : Nat)
  /-- POWER_ON (R391): a write of BUP.CMD.OP = 1. -/
  | powerOn (link : Link)
  /-- POWER_OFF (R392): a write of BUP.CMD.OP = 2. -/
  | powerOff (link : Link)
  /-- RECHECK (R417): a write of BUP.CMD.OP = 3. -/
  | recheck (link : Link)
  /-- ACCEPT_CMD (R417): a write of BUP.CMD.OP = 4. -/
  | acceptCmd (link : Link) (mask : Nat)
  /-- COMPUTE_RESET (R418): a write of BUP.CMD.OP = 5. -/
  | computeReset (link : Link)
  /-- COMPUTE_RESET_TAKE_EFFECT (R419): the grid point of a compute reset. -/
  | computeResetTakeEffect
  /-- CFG_BEGIN (R411): a write of BUP.CMD.OP = 6. -/
  | cfgBegin (link : Link)
  /-- CFG_DATA (R411): a write to BUP.CFG_DATA. -/
  | cfgData (link : Link) (value : Word)
  /-- CFG_COMMIT (R411): a write of BUP.CMD.OP = 7. -/
  | cfgCommit (link : Link)
  /-- CFG_REVERT (R411): a write of BUP.CMD.OP = 8. -/
  | cfgRevert (link : Link)
  /-- BRINGUP_STAGE_END (R394): the running stage ends after `ms`, with the defects it found. -/
  | bringupStageEnd (ms : Nat) (found : List Found)
  /-- STAGE_TIMEOUT (R397): the running stage passes its limit. -/
  | stageTimeout (ms : Nat) (found : List Found)
  /-- CHECKING_COMPLETE (R415): CHECKING ends. -/
  | checkingComplete
  /-- TOPO_WAIT (R415): the TOPO_WAIT time ends. -/
  | topoWait
  /-- HELD_ENTRY (R416): a class C event of the named EVENT bit. -/
  | heldEntry (page bit : Nat)
  /-- FIELD_DEFECT_APPEND (R402): an in-service finding. -/
  | fieldDefectAppend (entry : Found)
  /-- LOG_PROGRAM (R402): the shelf programs the staged log entries. -/
  | logProgram
  /-- CLAIM (R433): a write of TEL.CLAIM.CLAIM. -/
  | claim (link : Link)
  /-- RELEASE_OWNER (R433): a write of TEL.CLAIM.RELEASE. -/
  | releaseOwner (link : Link)
  /-- PCIE_LINK_RESET (R360): a hot reset, link-down or FLR. -/
  | pcieLinkReset (link : Link)
  /-- BAR2_READ (R430): a BAR2 read. -/
  | bar2Read (link : Link) (off len : Nat)
  /-- BAR2_WRITE (R430): a BAR2 write. -/
  | bar2Write (link : Link) (off : Nat) (data : Bytes)
  /-- CAP (R436): a management datagram. -/
  | cap (dgram : Bytes)
  /-- MGMT_POWER_ON (R436). -/
  | mgmtPowerOn (dgram : Bytes)
  /-- MGMT_POWER_OFF (R436). -/
  | mgmtPowerOff (dgram : Bytes)
  /-- MGMT_COMPUTE_RESET (R436). -/
  | mgmtComputeReset (dgram : Bytes)
  /-- SET_OWNER (R433). -/
  | setOwner (dgram : Bytes)
  /-- READ_REG (R436). -/
  | readReg (dgram : Bytes)
  /-- READ_MEM (R436). -/
  | readMem (dgram : Bytes)
  /-- SUBSCRIBE (R440). -/
  | subscribe (dgram : Bytes)
  /-- REMOTE_ACCESS (R432). -/
  | remoteAccess (dgram : Bytes)
  /-- UNKNOWN_MGMT_OP (R437). -/
  | unknownMgmtOp (dgram : Bytes)
  /-- TELEMETRY_FRAME (R439): an unheld grid point, for the frame. -/
  | telemetryFrame
  /-- EVENT_W1C (R445): a write to a page's EVENT. -/
  | eventW1c (link : Link) (page : Nat) (value : Word)
  /-- EVT_HOLDOFF_EXPIRY (R478): HOLDOFF ends. -/
  | evtHoldoffExpiry
  /-- LOW_WORD_READ (R455): a read of the low word of a 64-bit register. -/
  | lowWordRead (link : Link) (page off : Nat)
  /-- TK_PERIOD_WRITE (R322): a write to TK.PERIOD. -/
  | tkPeriodWrite (link : Link) (value : Word)
  /-- SPLIT_WRITE (R209): a write to FAB.SPLIT. -/
  | splitWrite (link : Link) (value : Word)
  /-- REVOKE (R473): a write of SLOTn_CMD.REVOKE. -/
  | revoke (link : Link) (slot : Nat)
  /-- KEY_DATA (R474): a write to LIC.KEY_DATA. -/
  | keyData (link : Link) (value : Word)
  /-- INSTALL (R474): a write of LIC.KEY_CMD.INSTALL. -/
  | install (link : Link)
  /-- KEY_CLEAR (R474): a write of LIC.KEY_CMD.CLEAR. -/
  | keyClear (link : Link)
  /-- KEY_GRACE_EXPIRY (R474): 10 s after an install into slot 6 or 7. -/
  | keyGraceExpiry (slot : Nat)
  /-- REGISTER_WRITE (R464): a BAR0 write at a byte offset, of a length in bytes. -/
  | registerWrite (link : Link) (addr len value : Nat)
  /-- LIGHT_RETURN (R283): a group's laser input returns. -/
  | lightReturn (group : Nat)
  /-- ACLK_RETURN (R393): ACLK runs again. -/
  | aclkReturn
  /-- PCIE_LINK_UP (R428): a link trains at rate code 1 to 5. -/
  | pcieLinkUp (link : Link) (rate width : Nat)
  /-- MGMT_PORT_LINK (R490): the management port link. -/
  | mgmtPortLink (up : Bool)
  /-- THERMAL_CAP_CLEAR (R383): 1 s without the thermal cap's condition. -/
  | thermalCapClear
  /-- CAP_GATE_DEADLINE (R374): 200 µs after a cap without a boundary. -/
  | capGateDeadline
  /-- JOB_BARRIER_RELEASE (R337): the release instant of the job barrier. -/
  | jobBarrierRelease
  /-- NEW_MAP_VERSION (R310): a raised map version in a marker. -/
  | newMapVersion (engine version : Nat)
  /-- DEPUTY_LOST (R344): the deputy too is lost. -/
  | deputyLost
  /-- CLASS_B_FAULT_REPORT (R338): a class B report to the crown. -/
  | classBFaultReport (group : Nat) (body : Bytes)
  /-- DEGRADED_REPORT (R67): a DEGRADED report to the crown. -/
  | degradedReport (group : Nat) (body : Bytes)
  /-- HOST_EXCLUSION (R340): an exclusion that host software directs, as a REMAP body. -/
  | hostExclusion (link : Link) (body : Bytes)
  /-- CROWN_RETRY_REQUEST (R249): the crown asks for a further REQ; a body laid out as a batt failure notice. -/
  | crownRetryRequest (body : Bytes)
  /-- FAULT_DRAIN_COMPLETE (R393): the fault drain of R393 ends. -/
  | faultDrainComplete
  /-- REMOTE_ACCESS_RESPONSE (R432): the answer to a foreign-aperture access. -/
  | remoteAccessResponse (link : Link) (status : Nat) (data : Bytes)
  /-- BAR0_READ (R470): a BAR0 read. -/
  | bar0Read (link : Link) (addr len : Nat)
  /-- BLOCK_RETIRED (R201): wear management retires a shelf block. -/
  | blockRetired (spareLow : Bool)
  /-- NAND_ERROR_CORRECTED (R201): the shelf corrects a NAND error. -/
  | nandErrorCorrected
  deriving DecidableEq, Repr

end Sys2Proof
end

