-- ==== Sys2Proof/Machine/Bits.lean ====
section
/-! DEFINITION. Bit fields of a register word, little-endian byte strings, and two's complement views: the helpers every
chapter's layouts are written with (00_scope: NAME[msb:lsb]; R125 little-endian). -/
namespace Sys2Proof.Machine

/-- A register field: the offset of its word in the page and its bits [msb:lsb]. -/
structure Fld where
  off : Nat
  msb : Nat
  lsb : Nat
  deriving DecidableEq, Repr

/-- How many bits a field has. -/
def Fld.width (f : Fld) : Nat := f.msb + 1 - f.lsb

/-- The value of bits [msb:lsb] of a word. -/
def bitsOf (w msb lsb : Nat) : Nat := (w >>> lsb) % 2 ^ (msb + 1 - lsb)

/-- The mask that covers bits [msb:lsb]. -/
def maskOf (msb lsb : Nat) : Nat := (2 ^ (msb + 1 - lsb) - 1) <<< lsb

/-- The value a word holds in a field. -/
def fget (w : Word) (f : Fld) : Nat := bitsOf w.toNat f.msb f.lsb

/-- The word with the field set to `v` (modulo the field's width), every other bit kept. -/
def fset (w : Word) (f : Fld) (v : Nat) : Word :=
  (w &&& ~~~(BitVec.ofNat 32 (maskOf f.msb f.lsb))) ||| BitVec.ofNat 32 ((v % 2 ^ f.width) <<< f.lsb)

/-- A little-endian byte string as a number. -/
def leNat : Bytes → Nat
  | [] => 0
  | b :: r => b.toNat + 256 * leNat r

/-- The `n` low bytes of a number, lowest first. -/
def toLE : Nat → Nat → Bytes
  | 0, _ => []
  | n + 1, v => BitVec.ofNat 8 v :: toLE n (v / 256)

/-- A big-endian byte string as a number. -/
def beNat (bs : Bytes) : Nat := bs.foldl (fun a b => 256 * a + b.toNat) 0

/-- The `n` low bytes of a number, highest first. -/
def toBE (n v : Nat) : Bytes := (toLE n v).reverse

/-- `n` bytes from position `i`, zero past the end of the string. -/
def slice (bs : Bytes) (i n : Nat) : Bytes :=
  let r := (bs.drop i).take n
  r ++ List.replicate (n - r.length) 0

/-- The number in bytes `i` to `i + n - 1`, little-endian. -/
def leAt (bs : Bytes) (i n : Nat) : Nat := leNat (slice bs i n)

/-- Two's complement value of the `n` low bits of `v`. -/
def signedOf (n v : Nat) : Int :=
  let m := v % 2 ^ n
  if m < 2 ^ (n - 1) then (m : Int) else (m : Int) - (2 : Int) ^ n

/-- The `n`-bit two's complement code of an integer. -/
def codeOf (n : Nat) (i : Int) : Nat := (i % (2 : Int) ^ n).toNat

/-- `⌈a ÷ b⌉`. -/
def ceilDiv (a b : Nat) : Nat := (a + (b - 1)) / b

/-- Bit `i` of a number. -/
def bit (w i : Nat) : Bool := w.testBit i

/-- A number with bit `i` set. -/
def setBit (w i : Nat) : Nat := w ||| (1 <<< i)

/-- A number with bit `i` clear. -/
def clearBit (w i : Nat) : Nat := if w.testBit i then w - 2 ^ i else w

/-- 1 for true. -/
def b2n (b : Bool) : Nat := if b then 1 else 0

/-- How many of the `n` low bits are set. -/
def popcount (n w : Nat) : Nat := (List.range n).foldl (fun a i => a + b2n (w.testBit i)) 0

/-- The positions of the set bits among the `n` low bits, ascending. -/
def bitList (n w : Nat) : List Nat := (List.range n).filter (fun i => w.testBit i)

/-- The number whose set bits are the listed positions. -/
def maskOfList (l : List Nat) : Nat := l.foldl setBit 0

/-- Pads with zeros to a multiple of `n` bytes. -/
def padTo (n : Nat) (bs : Bytes) : Bytes :=
  bs ++ List.replicate (ceilDiv bs.length n * n - bs.length) 0

end Sys2Proof.Machine
end

