-- ==== Sys2Proof/Machine/Crc.lean ====
section
/-! DEFINITION. The cyclic redundancy codes of the module: CRC-64 (R50), CRC-32C (R290, R473) and CRC-16 (R290), and the
layer digest (R51). -/
namespace Sys2Proof.Machine

/-- One bit of a reflected CRC whose reflected polynomial is `p`. -/
def crcBitRefl (p r : Nat) : Nat := if r % 2 = 1 then (r / 2) ^^^ p else r / 2

/-- One byte of a reflected CRC. -/
def crcByteRefl (p r b : Nat) : Nat :=
  crcBitRefl p (crcBitRefl p (crcBitRefl p (crcBitRefl p (crcBitRefl p (crcBitRefl p (crcBitRefl p (crcBitRefl p (r ^^^ b))))))))

/-- CRC-64 of R50 (polynomial 0x42F0_E1EB_A9EA_3693, reflected, initial value and final XOR all ones). -/
def crc64 (bs : Bytes) : Nat :=
  (bs.foldl (fun r b => crcByteRefl 0xC96C5795D7870F42 r b.toNat) 0xFFFFFFFFFFFFFFFF) ^^^ 0xFFFFFFFFFFFFFFFF

/-- CRC-32C (polynomial 0x1EDC6F41, reflected, initial value and final XOR all ones). -/
def crc32c (bs : Bytes) : Nat :=
  (bs.foldl (fun r b => crcByteRefl 0x82F63B78 r b.toNat) 0xFFFFFFFF) ^^^ 0xFFFFFFFF

/-- One bit of the unreflected CRC-16. -/
def crc16Bit (r : Nat) : Nat := if r ≥ 0x8000 then ((2 * r) % 65536) ^^^ 0x1021 else 2 * r

/-- One byte of the unreflected CRC-16. -/
def crc16Byte (r b : Nat) : Nat :=
  crc16Bit (crc16Bit (crc16Bit (crc16Bit (crc16Bit (crc16Bit (crc16Bit (crc16Bit (r ^^^ (b * 256)))))))))

/-- CRC-16 of the flit header: polynomial 0x1021, initial value 0xFFFF (R290). -/
def crc16 (bs : Bytes) : Nat := bs.foldl (fun r b => crc16Byte r b.toNat) 0xFFFF

/-- The digest granules of a byte stream (R51), with their indexes. -/
def digestFuel : Nat → Nat → Bytes → Nat
  | 0, _, _ => 0
  | _, _, [] => 0
  | n + 1, i, bs => crc64 (bs.take 4096 ++ toLE 8 i) + digestFuel n (i + 1) (bs.drop 4096)

/-- The layer digest of a byte stream: the sum of its granules' CRC-64 modulo 2^64 (R51). -/
def digest (bs : Bytes) : Nat := digestFuel bs.length 0 bs % 2 ^ 64

end Sys2Proof.Machine
end

