-- ==== Sys2Proof/Machine/Fp.lean ====
section
/-! DEFINITION. Element formats, exact values, conversion, rounding and overflow (02_numerics: R25 to R34, R44, R53).
A value is held exactly, as a sign, a natural mantissa and a power of two; every rounding is one explicit step. -/
namespace Sys2Proof.Machine

/-- The element formats of R25 and R128. -/
inductive Fmt where
  | fp32 | bf16 | fp16 | e4m3 | e5m2 | e3m2 | e2m3 | e2m1 | int8 | int4 | int32 | fulled
  deriving DecidableEq, Repr

/-- The format codes of R128. -/
def Fmt.ofCode : Nat → Option Fmt
  | 0 => some .fp32 | 1 => some .bf16 | 2 => some .fp16 | 3 => some .e4m3 | 4 => some .e5m2
  | 5 => some .e3m2 | 6 => some .e2m3 | 7 => some .e2m1 | 8 => some .int8 | 9 => some .int4
  | 10 => some .int32 | 11 => some .fulled
  | _ => none

/-- Bits of one element (R25, R128). -/
def Fmt.bits : Fmt → Nat
  | .fp32 => 32 | .bf16 => 16 | .fp16 => 16 | .e4m3 => 8 | .e5m2 => 8 | .e3m2 => 6 | .e2m3 => 6
  | .e2m1 => 4 | .int8 => 8 | .int4 => 4 | .int32 => 32 | .fulled => 24

/-- Stored mantissa bits of a floating-point format (R25). -/
def Fmt.man : Fmt → Nat
  | .fp32 => 23 | .bf16 => 7 | .fp16 => 10 | .e4m3 => 3 | .e5m2 => 2 | .e3m2 => 2 | .e2m3 => 3
  | .e2m1 => 1 | _ => 0

/-- Exponent bias (R25). -/
def Fmt.bias : Fmt → Int
  | .fp32 => 127 | .bf16 => 127 | .fp16 => 15 | .e4m3 => 7 | .e5m2 => 15 | .e3m2 => 3 | .e2m3 => 1
  | .e2m1 => 1 | _ => 0

/-- The formats that travel in scaled blocks (R28, R128: codes 3 to 9). -/
def Fmt.isMx : Fmt → Bool
  | .e4m3 | .e5m2 | .e3m2 | .e2m3 | .e2m1 | .int8 | .int4 => true
  | _ => false

/-- The integer element formats. -/
def Fmt.isInt : Fmt → Bool
  | .int8 | .int4 => true
  | _ => false

/-- The formats a value operand may have (R493): all but INT32 and the fulled mantissa. -/
def Fmt.isValue : Fmt → Bool
  | .int32 | .fulled => false
  | _ => true

/-- The true exponent of the largest normal value of an MX element format (R31). -/
def Fmt.emax : Fmt → Int
  | .e4m3 => 8 | .e5m2 => 15 | .e3m2 => 4 | .e2m3 => 2 | .e2m1 => 2 | _ => 0

/-- An exact value: not a number, an infinity, or (−1)^neg × m × 2^e. -/
inductive Val where
  | nan
  | inf (neg : Bool)
  | fin (neg : Bool) (m : Nat) (e : Int)
  deriving DecidableEq, Repr

/-- +0.0. -/
def Val.zero : Val := .fin false 0 0

/-- The sign bit of a code, as a flag. -/
def signBit (f : Fmt) (c : Nat) : Bool := c.testBit (f.bits - 1)

/-- The exact value of an element code, its block scale left out (R25, R26). -/
def decodeElem (f : Fmt) (c : Nat) : Val :=
  let man := c % 2 ^ f.man
  let ew := f.bits - 1 - f.man
  let ex := (c >>> f.man) % 2 ^ ew
  let neg := signBit f c
  let ones := decide (ex = 2 ^ ew - 1)
  let num : Val :=
    if ex = 0 then .fin neg man (1 - f.bias - f.man) else .fin neg (2 ^ f.man + man) ((ex : Int) - f.bias - f.man)
  match f with
  | .int8 => let q := signedOf 8 c; .fin (decide (q < 0)) q.natAbs (-6)
  | .int4 => let q := signedOf 4 c; .fin (decide (q < 0)) q.natAbs (-2)
  | .int32 => let q := signedOf 32 c; .fin (decide (q < 0)) q.natAbs 0
  | .fulled => let q := signedOf 24 c; .fin (decide (q < 0)) q.natAbs 0
  | .fp32 | .bf16 | .fp16 | .e5m2 => if ones then (if man = 0 then .inf neg else .nan) else num
  | .e4m3 => if ones && decide (man = 7) then .nan else num
  | .e3m2 | .e2m3 | .e2m1 => num

/-- The canonical NaN code of a format (R27). -/
def Fmt.canonNan : Fmt → Nat
  | .fp32 => 0x7FC00000 | .bf16 => 0x7FC0 | .fp16 => 0x7E00 | .e4m3 => 0x7F | .e5m2 => 0x7E | _ => 0

/-- The largest finite magnitude of a format as (mantissa, exponent) (R25, R34). -/
def Fmt.largest : Fmt → Nat × Int
  | .fp32 => (2 ^ 24 - 1, 104) | .bf16 => (255, 120) | .fp16 => (2047, 5) | .e4m3 => (14, 5) | .e5m2 => (7, 13)
  | .e3m2 => (7, 2) | .e2m3 => (15, -1) | .e2m1 => (3, 1) | .int8 => (127, -6) | .int4 => (7, -2)
  | .int32 => (2 ^ 31 - 1, 0) | .fulled => (2 ^ 23 - 1, 0)

/-- `m × 2^e`, `e` of either sign, as a numerator and a denominator. -/
def ratOf (m : Nat) (e : Int) : Nat × Nat :=
  if e < 0 then (m, 2 ^ e.natAbs) else (m * 2 ^ e.toNat, 1)

/-- Is `a₁ × 2^e₁ > a₂ × 2^e₂`? -/
def magGt (a : Nat × Int) (b : Nat × Int) : Bool :=
  let x := ratOf a.1 a.2
  let y := ratOf b.1 b.2
  decide (x.1 * y.2 > y.1 * x.2)

/-- `⌊log2 (n ÷ d)⌋` for positive `n` and `d`. -/
def log2Rat (n d : Nat) : Int :=
  let l : Int := (Nat.log2 n : Int) - (Nat.log2 d : Int)
  let ge : Bool := if l < 0 then decide (n * 2 ^ l.natAbs ≥ d) else decide (n ≥ d * 2 ^ l.toNat)
  if ge then l else l - 1

/-- The exponent of the spacing of a format's values at magnitude `n ÷ d` (R25: subnormals share the spacing of the
smallest normal binade; the integer formats have one spacing). -/
def quantumExp (f : Fmt) (n d : Nat) : Int :=
  match f with
  | .int8 => -6
  | .int4 => -2
  | .int32 | .fulled => 0
  | _ => max (log2Rat n d) (1 - f.bias) - f.man

/-- `n ÷ d` in units of `2^q`: quotient and remainder over the returned divisor. -/
def inUnits (n d : Nat) (q : Int) : Nat × Nat × Nat :=
  let n' := if q < 0 then n * 2 ^ q.natAbs else n
  let d' := if q < 0 then d else d * 2 ^ q.toNat
  (n' / d', n' % d', d')

/-- A rational magnitude rounded to a format's precision, to nearest, ties to even, with no upper limit to the exponent
(R32, R33), as (mantissa, exponent). -/
def roundNE (f : Fmt) (n d : Nat) : Nat × Int :=
  if n = 0 then (0, 0) else
  let q := quantumExp f n d
  let (k, r, d') := inUnits n d q
  let up := decide (2 * r > d') || (decide (2 * r = d') && decide (k % 2 = 1))
  (if up then k + 1 else k, q)

/-- A rational magnitude truncated toward zero to a format's precision. -/
def truncTo (f : Fmt) (n d : Nat) : Nat × Int :=
  if n = 0 then (0, 0) else
  let q := quantumExp f n d
  ((inUnits n d q).1, q)

/-- Stochastic rounding of a magnitude with the 24-bit variate `u` (R53): `|x| + u × 2^−24 × ulp`, truncated. -/
def roundSR (f : Fmt) (u n d : Nat) : Nat × Int :=
  if n = 0 then (0, 0) else
  let q := quantumExp f n d
  -- n/d + u * 2^(q-24)
  let e := q - 24
  if e < 0 then truncTo f (n * 2 ^ e.natAbs + u * d) (d * 2 ^ e.natAbs)
  else truncTo f (n + u * d * 2 ^ e.toNat) d

/-- The code of (−1)^neg × m × 2^q, for a magnitude the format represents. -/
def encodeFin (f : Fmt) (neg : Bool) (m : Nat) (q : Int) : Nat :=
  let s := if neg then 2 ^ (f.bits - 1) else 0
  match f with
  | .int8 | .int4 | .int32 | .fulled => codeOf f.bits (if neg then -(m : Int) else m)
  | _ =>
    if m = 0 then s else
    let qmin : Int := 1 - f.bias - f.man
    let l := Nat.log2 m
    -- bring the mantissa to the format's own exponent
    let e : Int := q + l
    if e < 1 - f.bias then
      s + (let (k, _, _) := inUnits (ratOf m q).1 (ratOf m q).2 qmin; k)
    else
      let frac := (inUnits (ratOf m q).1 (ratOf m q).2 (e - f.man)).1 - 2 ^ f.man
      s + (e + f.bias).toNat * 2 ^ f.man + frac

/-- The largest finite code with the given sign (R33; 127 and 7 for the integer formats, R34). -/
def satCode (f : Fmt) (neg : Bool) : Nat := encodeFin f neg f.largest.1 f.largest.2

/-- What R33's table gives an overflowing finite value. -/
def overflowCode (f : Fmt) (satfinite neg : Bool) : Nat :=
  if satfinite then satCode f neg else
  match f with
  | .fp32 | .bf16 | .fp16 | .e5m2 => encodeFin f neg 0 0 + (2 ^ (f.bits - 1 - f.man) - 1) * 2 ^ f.man
  | .e4m3 => f.canonNan
  | _ => satCode f neg

/-- The code of an infinity, where the format has one (R33). -/
def infCode (f : Fmt) (neg : Bool) : Nat :=
  match f with
  | .e4m3 => f.canonNan
  | _ => encodeFin f neg 0 0 + (2 ^ (f.bits - 1 - f.man) - 1) * 2 ^ f.man

/-- One conversion (R32 to R34, R53): the code, and whether the value saturated or overflowed. `u` is the variate of the
output element where the operator rounds stochastically. `keep` saturates any overflow (R31's exception). -/
def convertWith (f : Fmt) (satfinite keep : Bool) (u : Option Nat) : Val → Nat × Bool
  | .nan => (f.canonNan, false)
  | .inf neg => (infCode f neg, false)
  | .fin neg m e =>
    let (n, d) := ratOf m e
    let (k, q) := match u with
      | none => roundNE f n d
      | some w => roundSR f w n d
    if magGt (k, q) f.largest then
      (overflowCode f (satfinite || keep) neg, satfinite || keep || f.isMx && decide (f ≠ .e4m3) && decide (f ≠ .e5m2))
    else (encodeFin f neg k q, false)

/-- A conversion that rounds to nearest, ties to even. -/
def convert (f : Fmt) (satfinite : Bool) (v : Val) : Nat × Bool := convertWith f satfinite false none v

/-- round(): to FP32, ties to even, an overflow becoming an infinity (R44: IEEE 754 binary32). -/
def round32 (v : Val) : Word := BitVec.ofNat 32 (convert .fp32 false v).1

/-- The exact value of an FP32 word. -/
def val32 (w : Word) : Val := decodeElem .fp32 w.toNat

/-- The negated value. -/
def Val.neg : Val → Val
  | .nan => .nan
  | .inf s => .inf (!s)
  | .fin s m e => .fin (!s) m e

/-- The signed mantissa at exponent `e₀ ≤ e`. -/
def Val.mantAt (s : Bool) (m : Nat) (e e₀ : Int) : Int :=
  let k : Int := (m * 2 ^ (e - e₀).toNat : Nat)
  if s then -k else k

/-- The exact value of a signed mantissa. -/
def Val.ofInt (k e : Int) : Val := .fin (decide (k < 0)) k.natAbs e

/-- Exact addition; an exact zero sum of values that are not both −0.0 is +0.0 (IEEE 754, ties to even). -/
def Val.add : Val → Val → Val
  | .nan, _ => .nan
  | _, .nan => .nan
  | .inf a, .inf b => if a = b then .inf a else .nan
  | .inf a, .fin .. => .inf a
  | .fin .., .inf b => .inf b
  | .fin s m e, .fin t n g =>
    let e₀ := min e g
    let k := Val.mantAt s m e e₀ + Val.mantAt t n g e₀
    if k = 0 then .fin (s && t) 0 0 else Val.ofInt k e₀

/-- Exact multiplication. -/
def Val.mul : Val → Val → Val
  | .nan, _ => .nan
  | _, .nan => .nan
  | .inf a, .inf b => .inf (a != b)
  | .inf a, .fin s m _ => if m = 0 then .nan else .inf (a != s)
  | .fin s m _, .inf b => if m = 0 then .nan else .inf (s != b)
  | .fin s m e, .fin t n g => .fin (s != t) (m * n) (e + g)

/-- An exact power of two applied to a value. -/
def Val.scale (k : Int) : Val → Val
  | .fin s m e => .fin s m (e + k)
  | v => v

/-- `a < b` for values that are not NaN; ±0.0 are equal. -/
def Val.lt : Val → Val → Bool
  | .nan, _ => false
  | _, .nan => false
  | .inf a, .inf b => a && !b
  | .inf a, .fin .. => a
  | .fin .., .inf b => !b
  | .fin s m e, .fin t n g =>
    let e₀ := min e g
    decide (Val.mantAt s m e e₀ < Val.mantAt t n g e₀)

/-- Numeric equality; NaN equals nothing, and +0.0 equals −0.0. -/
def Val.eqv (a b : Val) : Bool :=
  match a, b with
  | .nan, _ => false
  | _, .nan => false
  | a, b => !(Val.lt a b) && !(Val.lt b a)

/-- Is the value NaN? -/
def Val.isNan : Val → Bool
  | .nan => true
  | _ => false

/-- Is the value finite? -/
def Val.isFin : Val → Bool
  | .fin .. => true
  | _ => false

/-- Is the value a zero of either sign? -/
def Val.isZero : Val → Bool
  | .fin _ m _ => decide (m = 0)
  | _ => false

/-- Is the sign bit set? -/
def Val.sign : Val → Bool
  | .nan => false
  | .inf s => s
  | .fin s _ _ => s

/-- max() of R146: the maximum of +0.0 and −0.0 is +0.0, and a NaN operand gives NaN. -/
def Val.max2 (a b : Val) : Val :=
  if a.isNan || b.isNan then .nan
  else if Val.lt a b then b
  else if Val.lt b a then a
  else if a.sign then b else a

/-- min() of R146: the minimum of +0.0 and −0.0 is −0.0, and a NaN operand gives NaN. -/
def Val.min2 (a b : Val) : Val :=
  if a.isNan || b.isNan then .nan
  else if Val.lt a b then a
  else if Val.lt b a then b
  else if a.sign then a else b

/-- FP32 addition (R44). -/
def add32 (a b : Word) : Word := round32 ((val32 a).add (val32 b))
/-- FP32 subtraction (R44). -/
def sub32 (a b : Word) : Word := round32 ((val32 a).add (val32 b).neg)
/-- FP32 multiplication (R44). -/
def mul32 (a b : Word) : Word := round32 ((val32 a).mul (val32 b))
/-- FP32 fused multiply-add: one rounding (R44). -/
def fma32 (a b c : Word) : Word := round32 (((val32 a).mul (val32 b)).add (val32 c))

/-- FP32 +0.0. -/
def zero32 : Word := 0#32
/-- FP32 1.0. -/
def one32 : Word := 0x3F800000#32
/-- FP32 −infinity. -/
def ninf32 : Word := 0xFF800000#32
/-- FP32 canonical NaN (R27). -/
def nan32 : Word := 0x7FC00000#32

/-- round(n ÷ d) for natural numbers, `d > 0` (R147, R149: the correctly rounded 1 ÷ C). -/
def divRound32 (n d : Nat) : Word :=
  let (k, q) := roundNE .fp32 n d
  BitVec.ofNat 32 (encodeFin .fp32 false k q)

/-- The E8M0 block scale `v`, as a power of two; 0xFF makes every element NaN (R29). -/
def scaled (v : Nat) (x : Val) : Val := if v = 0xFF then .nan else x.scale ((v : Int) - 127)

/-- decode() (05_sniash): the exact value of the element times its scale, or what R33's FP32 row gives under the descriptor's
SATFINITE where that value exceeds FP32 (DEDUCED, notes/assumptions/41.md). -/
def decodeClamped (satfinite : Bool) (x : Val) : Val :=
  match x with
  | .fin s m e =>
    let (n, d) := ratOf m e
    let (k, q) := roundNE .fp32 n d
    if magGt (k, q) Fmt.fp32.largest then (if satfinite then .fin s Fmt.fp32.largest.1 Fmt.fp32.largest.2 else .inf s) else x
  | v => v

end Sys2Proof.Machine
end

