-- ==== Sys2Proof/Machine/VecFun.lean ====
section
/-! DEFINITION. The vector unit's functions, correctly rounded (R46), and its reductions (R42, R45). exp, log, tanh and erf are
enclosed between two fixed-point bounds; where both bounds round to one FP32 value, that value is the correctly rounded
result. The precision doubles until they agree (notes/assumptions/10.md). -/
namespace Sys2Proof.Machine

/-- An enclosure `[lo, hi]` of a non-negative number, in units of `2^−P`. -/
abbrev Encl := Nat × Nat

namespace Encl

/-- Product, rounded outward. -/
def mul (P : Nat) (a b : Encl) : Encl := ((a.1 * b.1) >>> P, ((a.2 * b.2) >>> P) + 1)

/-- Quotient of positive enclosures, rounded outward. -/
def div (P : Nat) (a b : Encl) : Encl := ((a.1 <<< P) / b.2, (a.2 <<< P) / b.1 + 1)

/-- Division by a natural number. -/
def divNat (a : Encl) (n : Nat) : Encl := (a.1 / n, a.2 / n + 1)

/-- Sum. -/
def add (a b : Encl) : Encl := (a.1 + b.1, a.2 + b.2)

/-- The enclosure of `n ÷ d`. -/
def ofRat (P n d : Nat) : Encl := ((n <<< P) / d, (n <<< P) / d + 1)

/-- One. -/
def one (P : Nat) : Encl := (1 <<< P, 1 <<< P)

end Encl

/-- `Σ_{i < n} y^i ÷ i!` for `0 ≤ y < 1/2`, with its tail, by running terms. -/
def expSeries (P : Nat) (y : Encl) : Nat → Nat → Encl → Encl → Encl
  | 0, _, term, acc => (acc.1, acc.2 + 2 * term.2 + 2)
  | n + 1, i, term, acc =>
    let t := Encl.divNat (Encl.mul P term y) (i + 1)
    expSeries P y n (i + 1) t (Encl.add acc t)

/-- Repeated squaring. -/
def sqTimes (P : Nat) : Nat → Encl → Encl
  | 0, a => a
  | n + 1, a => sqTimes P n (Encl.mul P a a)

/-- exp of a non-negative enclosed number below 2^7: scaled by 2^−8, summed, squared eight times. -/
def expPos (P : Nat) (x : Encl) : Encl :=
  let y : Encl := (x.1 >>> 8, (x.2 >>> 8) + 1)
  sqTimes P 8 (expSeries P y P 0 (Encl.one P) (Encl.one P))

/-- `Σ_{i < n} z^(2i+1) ÷ (2i+1)` for `0 ≤ z ≤ 1/3`. -/
def atanhSeries (P : Nat) (z2 : Encl) : Nat → Nat → Encl → Encl → Encl
  | 0, _, pw, acc => (acc.1, acc.2 + pw.2 + 2)
  | n + 1, i, pw, acc =>
    atanhSeries P z2 n (i + 1) (Encl.mul P pw z2) (Encl.add acc (Encl.divNat pw (2 * i + 1)))

/-- The natural logarithm of `n ÷ d` in [1, 2]. -/
def lnNear (P n d : Nat) : Encl :=
  let z := Encl.ofRat P (n - d) (n + d)
  let s := atanhSeries P (Encl.mul P z z) P 0 z (0, 0)
  (2 * s.1, 2 * s.2)

/-- `atan(1 ÷ k)` by its alternating series. -/
def atanInv (P k : Nat) : Nat → Nat → Nat → Bool → Int → Int
  | 0, _, _, _, acc => acc
  | n + 1, i, pw, neg, acc =>
    let t : Int := (pw / (2 * i + 1) : Nat)
    atanInv P k n (i + 1) (pw / (k * k)) (!neg) (if neg then acc - t else acc + t)

/-- π, by Machin's formula, with `P` terms and outward slack. -/
def piEncl (P : Nat) : Encl :=
  let a := atanInv P 5 P 0 ((1 <<< P) / 5) false 0
  let b := atanInv P 239 P 0 ((1 <<< P) / 239) false 0
  let c := (16 * a - 4 * b).toNat
  (c - 64 * P, c + 64 * P)

/-- The square root of an enclosure. -/
def sqrtEncl (P : Nat) (a : Encl) : Encl := (Nat.sqrt (a.1 <<< P), Nat.sqrt (a.2 <<< P) + 1)

/-- `Σ 2^n x^(2n+1) ÷ (1·3·5···(2n+1))`. -/
def erfSeries (P : Nat) (x2 : Encl) : Nat → Nat → Encl → Encl → Encl
  | 0, _, t, acc => (acc.1, acc.2 + 2 * t.2 + 2)
  | n + 1, i, t, acc =>
    let t' := Encl.divNat (Encl.mul P t (2 * x2.1, 2 * x2.2)) (2 * i + 3)
    erfSeries P x2 n (i + 1) t' (Encl.add acc t')

/-- The four enclosed functions. -/
inductive VFun where
  | exp | log | tanh | erf
  deriving DecidableEq, Repr

/-- A signed enclosure. -/
structure SEncl where
  neg : Bool
  lo : Nat
  hi : Nat

/-- The enclosure of a function at ±(n ÷ d), for arguments that need one. -/
def enclose (P : Nat) (f : VFun) (neg : Bool) (n d : Nat) : SEncl :=
  let x := Encl.ofRat P n d
  match f with
  | .exp =>
    let e := expPos P x
    if neg then let r := Encl.div P (Encl.one P) e; ⟨false, r.1, r.2⟩ else ⟨false, e.1, e.2⟩
  | .log =>
    let l := log2Rat n d
    let t := if l < 0 then lnNear P (n * 2 ^ l.natAbs) d else lnNear P n (d * 2 ^ l.toNat)
    let ln2 := lnNear P 2 1
    if l < 0 then
      -- ln = ln t − |l| ln 2, a negative number
      ⟨true, l.natAbs * ln2.1 - t.2, l.natAbs * ln2.2 - t.1⟩
    else ⟨false, l.toNat * ln2.1 + t.1, l.toNat * ln2.2 + t.2⟩
  | .tanh =>
    let e := expPos P (2 * x.1, 2 * x.2)
    let o := 1 <<< P
    -- (E−1)/(E+1) rises with E, so each bound uses one end of E
    ⟨neg, ((e.1 - o) <<< P) / (e.1 + o), (((e.2 - o) <<< P) / (e.2 + o)) + 1⟩
  | .erf =>
    let x2 := Encl.ofRat P (n * n) (d * d)
    let s := erfSeries P x2 P 0 x x
    let g := Encl.div P (Encl.one P) (expPos P x2)
    let c := Encl.div P (2 * (1 <<< P), 2 * (1 <<< P)) (sqrtEncl P (piEncl P))
    let r := Encl.mul P c (Encl.mul P g s)
    ⟨neg, r.1, r.2⟩

/-- A magnitude in units of `2^−P`, rounded to FP32 with a sign. -/
def roundUnits (P : Nat) (neg : Bool) (k : Nat) : Word := round32 (.fin neg k (-(P : Int)))

/-- The precisions tried, in turn. -/
def zivPrecisions : List Nat := [320, 640, 1280, 2560]

/-- The first precision at which both bounds round to one value gives the result. -/
def ziv (f : VFun) (neg : Bool) (n d : Nat) : List Nat → Word
  | [] => let e := enclose 320 f neg n d; roundUnits 320 e.neg e.lo
  | P :: r =>
    let e := enclose P f neg n d
    let a := roundUnits P e.neg e.lo
    if a = roundUnits P e.neg e.hi then a else ziv f neg n d r

/-- exp, correctly rounded (R46). From 89 upward the result exceeds FP32; below −105 it rounds to +0.0. -/
def exp32 (w : Word) : Word :=
  match val32 w with
  | .nan => nan32
  | .inf neg => if neg then zero32 else 0x7F800000#32
  | .fin neg m e =>
    if m = 0 then one32 else
    let (n, d) := ratOf m e
    if decide (n ≥ 89 * d) && !neg then 0x7F800000#32
    else if decide (n ≥ 105 * d) && neg then zero32
    else ziv .exp neg n d zivPrecisions

/-- log, correctly rounded (R46). -/
def log32 (w : Word) : Word :=
  match val32 w with
  | .nan => nan32
  | .inf neg => if neg then nan32 else 0x7F800000#32
  | .fin neg m e =>
    if m = 0 then ninf32 else if neg then nan32 else
    let (n, d) := ratOf m e
    if n = d then zero32 else ziv .log false n d zivPrecisions

/-- tanh, correctly rounded (R46). From magnitude 10 upward the result rounds to ±1.0. -/
def tanh32 (w : Word) : Word :=
  match val32 w with
  | .nan => nan32
  | .inf neg => if neg then 0xBF800000#32 else one32
  | .fin neg m e =>
    if m = 0 then w else
    let (n, d) := ratOf m e
    if n ≥ 10 * d then (if neg then 0xBF800000#32 else one32) else ziv .tanh neg n d zivPrecisions

/-- erf, correctly rounded (R46). From magnitude 4 upward the result rounds to ±1.0. -/
def erf32 (w : Word) : Word :=
  match val32 w with
  | .nan => nan32
  | .inf neg => if neg then 0xBF800000#32 else one32
  | .fin neg m e =>
    if m = 0 then w else
    let (n, d) := ratOf m e
    if n ≥ 4 * d then (if neg then 0xBF800000#32 else one32) else ziv .erf neg n d zivPrecisions

/-- The reciprocal, correctly rounded (R46). -/
def recip32 (w : Word) : Word :=
  match val32 w with
  | .nan => nan32
  | .inf neg => if neg then 0x80000000#32 else zero32
  | .fin neg m e =>
    if m = 0 then (if neg then ninf32 else 0x7F800000#32) else
    let (n, d) := ratOf m e
    let (k, q) := roundNE .fp32 d n
    if magGt (k, q) Fmt.fp32.largest then (if neg then ninf32 else 0x7F800000#32)
    else BitVec.ofNat 32 (encodeFin .fp32 neg k q)

/-- The reciprocal square root, correctly rounded (R46). The root is taken to at least 60 bits; where it is not exact, the
remainder is kept as a half unit below them. -/
def rsqrt32 (w : Word) : Word :=
  match val32 w with
  | .nan => nan32
  | .inf neg => if neg then nan32 else zero32
  | .fin neg m e =>
    if m = 0 then (if neg then ninf32 else 0x7F800000#32) else if neg then nan32 else
    let (n, d) := ratOf m e
    let s := Nat.log2 n + 64
    let a := d * 2 ^ (2 * s)
    let k := Nat.sqrt (a / n)
    let exact := decide (k * k * n = a)
    let (p, q) := roundNE .fp32 (2 * k + (if exact then 0 else 1)) (2 ^ (s + 1))
    BitVec.ofNat 32 (encodeFin .fp32 false p q)

/-- One level of the canonical tree (R42): neighbours are added, an odd last one passes up. -/
def treeLevel : List Word → List Word
  | a :: b :: r => add32 a b :: treeLevel r
  | l => l

/-- The canonical tree over granule results in logical order (R42); `fuel` levels, the length being enough. -/
def treeFuel : Nat → List Word → Word
  | _, [] => zero32
  | _, [a] => a
  | 0, a :: _ => a
  | n + 1, l => treeFuel n (treeLevel l)

/-- The root of the canonical tree (R42). -/
def treeRoot (l : List Word) : Word := treeFuel l.length l

/-- The list cut into runs of `n`; `fuel` bounds the number of runs. -/
def chunksFuel {α : Type} (n : Nat) : Nat → List α → List (List α)
  | 0, _ => []
  | _, [] => []
  | k + 1, l => l.take n :: chunksFuel n k (l.drop n)

/-- The list cut into consecutive runs of `n ≥ 1`, the last perhaps shorter. -/
def chunks {α : Type} (n : Nat) (l : List α) : List (List α) := chunksFuel n l.length l

/-- One leaf of a vector reduction: added from +0.0 in ascending order (R45). -/
def leafSum (l : List Word) : Word := l.foldl add32 zero32

/-- A vector-unit reduction: leaves of 32, then the canonical tree (R45). -/
def vsum (l : List Word) : Word := treeRoot ((chunks 32 l).map leafSum)

end Sys2Proof.Machine
end

