-- ==== Sys2Proof/Machine/Mx.lean ====
section
/-! DEFINITION. Scaled blocks and array arithmetic: quantisation (R31), packing (R30), the exact block sums of R36 to R39
and the granules of R40 to R42. -/
namespace Sys2Proof.Machine

/-- One quantised block: its scale byte, its element codes, and what the conversion counted. -/
structure QBlock where
  scale : Nat
  codes : List Nat
  sats : Nat
  nonfin : Nat
  deriving DecidableEq, Repr

/-- The larger of two magnitudes. -/
def magMax (a b : Nat × Int) : Nat × Int := if magGt b a then b else a

/-- The magnitude of a finite value; zero for the others. -/
def Val.mag : Val → Nat × Int
  | .fin _ m e => (m, e)
  | _ => (0, 0)

/-- Converts a scaled element with R31's exception: an E4M3 or E5M2 element below 2^(emax + 1) saturates whatever
SATFINITE holds. -/
def convertScaled (f : Fmt) (satfinite : Bool) (u : Option Nat) (x : Val) : Nat × Bool :=
  convertWith f satfinite (magGt (1, f.emax + 1) x.mag) u x

/-- Quantises the values of one block (R31); `us` are the variates of its elements when rounding is stochastic. -/
def quantBlock (f : Fmt) (satfinite : Bool) (us : List (Option Nat)) (xs : List Val) : QBlock :=
  let bad := (xs.filter (fun x => !x.isFin)).length
  if bad ≠ 0 then ⟨0xFF, xs.map (fun _ => 0), 0, bad⟩ else
  let m := (xs.map Val.mag).foldl magMax (0, 0)
  if m.1 = 0 then ⟨0x7F, xs.map (fun _ => 0), 0, 0⟩ else
  let r := ratOf m.1 m.2
  let s := log2Rat r.1 r.2 - f.emax + 127
  let clamped := decide (s < 0) || decide (s > 0xFE)
  let sc := (max 0 (min s 0xFE)).toNat
  let cs := (xs.zip us).map (fun p => convertScaled f satfinite p.2 (p.1.scale (127 - (sc : Int))))
  ⟨sc, cs.map Prod.fst, (cs.filter Prod.snd).length + b2n clamped, 0⟩

/-- Element codes packed little-endian at `w` bits each (R30), as one number. -/
def packNat (w : Nat) : List Nat → Nat
  | [] => 0
  | c :: r => c % 2 ^ w + 2 ^ w * packNat w r

/-- Element codes packed into whole bytes (R30). -/
def packCodes (w : Nat) (cs : List Nat) : Bytes := toLE (ceilDiv (w * cs.length) 8) (packNat w cs)

/-- The `n` codes of `w` bits that a packed byte string holds. -/
def unpackCodes (w n : Nat) (bs : Bytes) : List Nat :=
  let v := leNat bs
  (List.range n).map (fun i => v / 2 ^ (w * i) % 2 ^ w)

/-- A row of an operand along the reduction dimension: element values without their block scales, and one scale byte per
32 elements (127, a factor of 1, for the formats without scales). -/
structure Row where
  vals : List Val
  scales : List Nat
  deriving DecidableEq, Repr

/-- The values of a row with their scales applied (R29). -/
def Row.values (r : Row) : List Val :=
  (r.vals.zip (List.range r.vals.length)).map (fun p => scaled (r.scales.getD (p.2 / 32) 127) p.1)

/-- The exact block sum of R36 to R38, scaled and rounded once. -/
def exactBlock (sa sb : Nat) (as bs : List Val) : Word :=
  if sa = 0xFF || sb = 0xFF || as.any Val.isNan || bs.any Val.isNan then nan32 else
  let ps := (as.zip bs).map (fun p => p.1.mul p.2)
  let t := ps.foldl Val.add Val.zero
  if ps.any Val.isNan || t.isNan then nan32
  else if t.isZero then zero32
  else round32 (t.scale ((sa : Int) + (sb : Int) - 254))

/-- The block sum of the FP32 × FP32 pairing (R39). -/
def fp32Block (as bs : List Val) : Word :=
  (as.zip bs).foldl (fun acc p => add32 acc (round32 (p.1.mul p.2))) zero32

/-- How the arrays reduce: the pairing's path, the exact block width (R54) and the granule size (R40). -/
structure RedCfg where
  fp32 : Bool
  width : Nat
  granule : Nat
  deriving DecidableEq, Repr

/-- The block sums of one granule, ascending (R36, R39; two halves of 16 under AP1, R54). -/
def blockSums (c : RedCfg) (a b : Row) : List Word :=
  let n := ceilDiv a.vals.length 32
  let blks := (chunks 32 a.vals).zip (chunks 32 b.vals)
  let go := fun (p : (List Val × List Val) × Nat) =>
    let sa := a.scales.getD p.2 127
    let sb := b.scales.getD p.2 127
    if c.fp32 then [fp32Block p.1.1 p.1.2]
    else ((chunks c.width p.1.1).zip (chunks c.width p.1.2)).map (fun q => exactBlock sa sb q.1 q.2)
  ((blks.zip (List.range n)).map go).flatten

/-- The granule results of one output element, in logical order (R40, R41). -/
def granules (c : RedCfg) (a b : Row) : List Word :=
  let per := if c.fp32 then c.granule / 32 else c.granule / c.width
  (chunks per (blockSums c a b)).map (fun l => l.foldl add32 zero32)

/-- root(): the canonical tree over the granule results (R42). -/
def root (c : RedCfg) (a b : Row) : Word := treeRoot (granules c a b)

end Sys2Proof.Machine
end

