-- ==== Sys2Proof/Machine/Philox.lean ====
section
/-! DEFINITION. The counter-based random function Philox-4×32-10 and the variates drawn from it (R52). -/
namespace Sys2Proof.Machine

/-- The four counter words. -/
structure PhCtr where
  c0 : Nat
  c1 : Nat
  c2 : Nat
  c3 : Nat
  deriving DecidableEq, Repr

/-- One round with round key (k0, k1). -/
def phRound (k0 k1 : Nat) (c : PhCtr) : PhCtr :=
  let p0 := 0xD2511F53 * c.c0
  let p1 := 0xCD9E8D57 * c.c2
  { c0 := (p1 / 2 ^ 32) ^^^ c.c1 ^^^ k0, c1 := p1 % 2 ^ 32,
    c2 := (p0 / 2 ^ 32) ^^^ c.c3 ^^^ k1, c3 := p0 % 2 ^ 32 }

/-- `n` rounds, the key advancing between rounds. -/
def phRounds : Nat → Nat → Nat → PhCtr → PhCtr
  | 0, _, _, c => c
  | n + 1, k0, k1, c => phRounds n ((k0 + 0x9E3779B9) % 2 ^ 32) ((k1 + 0xBB67AE85) % 2 ^ 32) (phRound k0 k1 c)

/-- Philox-4×32-10. -/
def philox (seed : Nat) (c : PhCtr) : PhCtr := phRounds 10 (seed % 2 ^ 32) (seed / 2 ^ 32 % 2 ^ 32) c

/-- The 32-bit word of logical element `n` of stream `stream`, with counter word c3 (R52). -/
def variateWord (seed stream c3 n : Nat) : Nat :=
  let q := n / 4
  let r := philox seed ⟨q % 2 ^ 32, q / 2 ^ 32 % 2 ^ 32, stream % 2 ^ 32, c3⟩
  match n % 4 with
  | 0 => r.c0
  | 1 => r.c1
  | 2 => r.c2
  | _ => r.c3

/-- The 24-bit variate: u = w[31:8] × 2^−24 (R52). -/
def variate (seed stream c3 n : Nat) : Nat := variateWord seed stream c3 n / 256

end Sys2Proof.Machine
end

