-- ==== Sys2Proof/Machine/OpMath.lean ====
section
/-! DEFINITION. What each Sniash operator computes, on logical tensors (05_sniash: R142 to R155). Storage forms stand in
Operands.lean; when an operator runs and what it reports stands in Sniash.lean. -/
namespace Sys2Proof.Machine

/-- A stored logical row: element codes, one scale byte per 32 elements for the MX formats, and, for a sparse weight,
which positions are stored (empty for a dense row). -/
structure CRow where
  codes : List Nat
  scales : List Nat
  stored : List Bool
  deriving DecidableEq, Repr

/-- A logical tensor: `batch × rows` rows in logical order (R127). -/
structure Ten where
  fmt : Fmt
  batch : Nat
  rows : Nat
  cols : Nat
  data : List CRow
  deriving DecidableEq, Repr

/-- An operand row as the arrays take it. -/
def CRow.toRow (f : Fmt) (r : CRow) : Row := ⟨r.codes.map (decodeElem f), r.scales⟩

/-- decode(): the exact values of a row times their block scales, or R33's FP32 row under SATFINITE beyond FP32. -/
def CRow.decode (satfinite : Bool) (f : Fmt) (r : CRow) : List Val := (r.toRow f).values.map (decodeClamped satfinite)

/-- The decoded rows of a tensor as FP32 words. -/
def Ten.words (satfinite : Bool) (t : Ten) : List (List Word) := t.data.map (fun r => (r.decode satfinite t.fmt).map round32)

/-- The rows of a tensor as signed 32-bit integers (R493: INT32 slots). -/
def Ten.ints (t : Ten) : List (List Int) := t.data.map (fun r => r.codes.map (signedOf 32))

/-- The numeric choices of a descriptor that the conversions use (R130, R52). -/
structure Cv where
  satfinite : Bool
  sround : Bool
  seed : Nat
  stream : Nat
  deriving DecidableEq, Repr

/-- What an operator yields: its output tensors by slot, and its counts (R139). -/
structure OpOut where
  tens : List (Nat × Ten)
  sats : Nat
  nonfin : Nat
  aux : Nat
  flag : Bool
  deriving DecidableEq, Repr

/-- The variate of logical element `n` under stochastic rounding (R52, R53). -/
def Cv.var (c : Cv) (c3 n : Nat) : Option Nat := if c.sround then some (variate c.seed c.stream c3 n) else none

/-- convert() of one row starting at logical index `n0` (R31 to R34, R52): the row, its saturations and its nonfinite
elements. -/
def convRow (c : Cv) (f : Fmt) (c3 n0 : Nat) (xs : List Val) : CRow × Nat × Nat :=
  let us := (List.range xs.length).map (fun i => c.var c3 (n0 + i))
  if f.isMx then
    let bs := ((chunks 32 xs).zip (chunks 32 us)).map (fun p => quantBlock f c.satfinite p.2 p.1)
    (⟨(bs.map QBlock.codes).flatten, bs.map QBlock.scale, []⟩,
      (bs.map QBlock.sats).foldl (· + ·) 0, (bs.map QBlock.nonfin).foldl (· + ·) 0)
  else
    let cs := (xs.zip us).map (fun p => convertWith f c.satfinite false p.2 p.1)
    (⟨cs.map Prod.fst, [], []⟩, (cs.filter Prod.snd).length, 0)

/-- convert() of a whole output of `b × r` rows of `n` columns (R127: logical index (b × ROWS + r) × COLS + c). -/
def convTen (c : Cv) (f : Fmt) (b r n slot aux : Nat) (rows : List (List Val)) : OpOut :=
  let rs := (rows.zip (List.range rows.length)).map (fun p => convRow c f 0 (p.2 * n) p.1)
  { tens := [(slot, ⟨f, b, r, n, rs.map (fun x => x.1)⟩)],
    sats := (rs.map (fun x => x.2.1)).foldl (· + ·) 0,
    nonfin := (rs.map (fun x => x.2.2)).foldl (· + ·) 0,
    aux := aux, flag := rs.any (fun x => decide (x.2.2 ≠ 0)) }

/-- FP32 words as exact values. -/
def vals (l : List (List Word)) : List (List Val) := l.map (fun r => r.map val32)

/-- Row `i` of batch `b`. -/
def Ten.row (t : Ten) (b i : Nat) : CRow := t.data.getD (b * t.rows + i) ⟨[], [], []⟩

/-- The rows of batch `b`. -/
def Ten.batchRows (t : Ten) (b : Nat) : List CRow := (t.data.drop (b * t.rows)).take t.rows

/-- The function table of R144. -/
def epiFn (code : Nat) (x : Word) : Word :=
  match code with
  | 1 => if (val32 x).isNan then nan32 else if Val.lt Val.zero (val32 x) then x else zero32
  | 2 => mul32 (mul32 x 0x3F000000#32) (add32 one32 (erf32 (mul32 x 0x3F3504F3#32)))
  | 3 => mul32 x (recip32 (add32 one32 (exp32 (round32 (val32 x).neg))))
  | 4 => tanh32 x
  | 5 => exp32 x
  | _ => x

/-! ### GEMM (R142, R143) -/

/-- The granule reduction of a pairing under a profile (R39, R40, R54). -/
def redCfg (level granule : Nat) (f : Fmt) : RedCfg :=
  ⟨decide (f = .fp32), if level = 1 then 16 else 32, if granule = 0 then 1024 else 256 * granule⟩

/-- One output element after the epilogue (R142). -/
def gemmElem (rc : RedCfg) (alpha : Word) (epi : Nat) (a b : Row) (bias acc : Option Val) : Word :=
  let v := mul32 (root rc a b) alpha
  let v := match bias with
    | some x => round32 ((val32 v).add x)
    | none => v
  let v := match acc with
    | some x => round32 ((val32 v).add x)
    | none => v
  epiFn epi v

/-- One output row: A's row against every row of a batch of B. -/
def gemmRow (rc : RedCfg) (alpha : Word) (epi : Nat) (fa fb : Fmt) (a : CRow) (bs : List CRow)
    (bias acc : List Val) : List Word :=
  let ra := a.toRow fa
  (bs.zip (List.range bs.length)).map (fun p => gemmElem rc alpha epi ra (p.1.toRow fb) (bias[p.2]?) (acc[p.2]?))

/-- How many block sums of one element an infinity facing a pruned weight makes NaN (R108). -/
def prunedBlocks (fa : Fmt) (a b : CRow) : Nat :=
  let inf := a.codes.map (fun c => match decodeElem fa c with
    | .inf _ => true
    | _ => false)
  ((chunks 32 (inf.zip b.stored)).filter (fun blk => blk.any (fun p => p.1 && !p.2))).length

/-- GEMM (R142): T0 A, T1 B, T2 out, optional T3 bias; `old` is the existing output under ACCUM. -/
def gemmOut (cv : Cv) (rc : RedCfg) (alpha : Word) (epi : Nat) (a b : Ten) (fo : Fmt) (bias : Option Ten)
    (old : Option Ten) : OpOut :=
  let bv := match bias with
    | some t => (t.row 0 0).decode cv.satfinite t.fmt
    | none => []
  let rows := ((List.range a.batch).map (fun i => (List.range a.rows).map (fun m =>
    let bb := if b.batch = 1 then 0 else i
    let acc := match old with
      | some t => (t.row i m).decode cv.satfinite t.fmt
      | none => []
    gemmRow rc alpha epi a.fmt b.fmt (a.row i m) (b.batchRows bb) bv acc))).flatten
  convTen cv fo a.batch a.rows b.rows 2 0 (vals rows)

/-- The expert of row `r` under the offsets of R143. -/
def expertOf (offs : List Int) (r : Nat) : Nat :=
  ((offs.drop 1).filter (fun (o : Int) => decide (o ≤ (r : Int)))).length

/-- Do the offsets start at 0, never decrease and end at M (R143)? -/
def offsetsOk (offs : List Int) (m : Nat) : Bool :=
  decide (offs.head? = some 0) && decide (offs.getLast? = some (m : Int)) &&
    ((offs.zip (offs.drop 1)).all (fun p => decide (p.1 ≤ p.2)))

/-- Grouped GEMM (R143). -/
def groupedOut (cv : Cv) (rc : RedCfg) (alpha : Word) (epi : Nat) (a b : Ten) (fo : Fmt) (offs : List Int)
    (old : Option Ten) : OpOut :=
  let rows := (List.range a.rows).map (fun m =>
    let acc := match old with
      | some t => (t.row 0 m).decode cv.satfinite t.fmt
      | none => []
    gemmRow rc alpha epi a.fmt b.fmt (a.row 0 m) (b.batchRows (expertOf offs m)) [] acc)
  convTen cv fo 1 a.rows b.rows 2 0 (vals rows)

/-! ### Softmax and attention (R145, R148) -/

/-- max() over a row; −infinity for none (R146, R148). -/
def maxOf : List Word → Word
  | [] => ninf32
  | a :: r => r.foldl (fun m x => round32 ((val32 m).max2 (val32 x))) a

/-- min() over a row (R146, R149). -/
def minOf : List Word → Word
  | [] => 0x7F800000#32
  | a :: r => r.foldl (fun m x => round32 ((val32 m).min2 (val32 x))) a

/-- softmax of already scaled logits, and whether the row's maximum was −infinity (R148). -/
def softmaxRow (z : List Word) : List Word × Bool :=
  let m := maxOf z
  if m = ninf32 then (z.map (fun _ => zero32), true) else
  let e := z.map (fun x => exp32 (sub32 x m))
  let r := recip32 (vsum e)
  (e.map (fun x => mul32 x r), false)

/-- SOFTMAX (R148). -/
def softmaxOut (cv : Cv) (alpha : Word) (x : Ten) (fo : Fmt) : OpOut :=
  let rs := (x.words cv.satfinite).map (fun r => softmaxRow (r.map (fun v => mul32 v alpha)))
  convTen cv fo x.batch x.rows x.cols 1 (rs.filter Prod.snd).length (vals (rs.map Prod.fst))

/-- One row of ATTN: the output row before conversion, whether every position was masked or its maximum was −infinity,
and the counts of the conversion of p (R145). -/
def attnRow (cv : Cv) (rcS rcO : RedCfg) (alpha : Word) (causal : Bool) (fq fk fv : Fmt) (q : CRow)
    (ks vts : List CRow) (i lq lk : Nat) (len : Option Int) (n0 : Nat) : List Word × Bool × Nat × Nat :=
  let rq := q.toRow fq
  let masked := fun (j : Nat) =>
    (causal && decide ((j : Int) > (i : Int) + (lk : Int) - (lq : Int))) ||
      (match len with
        | some l => decide ((j : Int) ≥ l)
        | none => false)
  let z := (ks.zip (List.range lk)).map (fun p =>
    if masked p.2 then ninf32 else mul32 (root rcS rq (p.1.toRow fk)) alpha)
  let sm := softmaxRow z
  let (p', sats, nf) := convRow cv fv 1 n0 (sm.1.map val32)
  let o := if (List.range lk).all masked then vts.map (fun _ => zero32)
    else vts.map (fun v => root rcO (p'.toRow fv) (v.toRow fv))
  (o, sm.2, sats, nf)

/-- ATTN (R145): T0 Q, T1 K, T2 Vᵀ, T3 out, optional T4 key lengths. -/
def attnOut (cv : Cv) (level granule : Nat) (alpha : Word) (causal : Bool) (q k v : Ten) (fo : Fmt)
    (lens : Option Ten) : OpOut :=
  let rcS := redCfg level granule q.fmt
  let rcO := redCfg level granule v.fmt
  let rs := ((List.range q.batch).map (fun b =>
    let kb := b * k.batch / q.batch
    let len := match lens with
      | some t => (t.ints.getD b []).head?
      | none => none
    (List.range q.rows).map (fun i =>
      attnRow cv rcS rcO alpha causal q.fmt k.fmt v.fmt (q.row b i) (k.batchRows kb) (v.batchRows kb) i q.rows k.rows
        len ((b * q.rows + i) * k.rows)))).flatten
  let r := convTen cv fo q.batch q.rows v.rows 3 (rs.filter (fun x => x.2.1)).length (vals (rs.map (fun x => x.1)))
  { r with sats := r.sats + (rs.map (fun x => x.2.2.1)).foldl (· + ·) 0,
           nonfin := r.nonfin + (rs.map (fun x => x.2.2.2)).foldl (· + ·) 0,
           flag := r.flag || rs.any (fun x => decide (x.2.2.2 ≠ 0)) }

/-! ### Element-wise, normalisation and reduction (R146, R147, R149) -/

/-- The SUBOP codes of ELEM (R141, R146). -/
def elemSubops : List Nat := [0, 1, 2, 3, 4, 5, 6, 7, 0x11, 0x12, 0x13, 0x14, 0x15]

/-- Is the ELEM variant binary? -/
def elemBinary (sub : Nat) : Bool := decide (sub ≤ 4) || decide (sub = 7)

/-- One ELEM result, rounded to FP32 (R146). -/
def elemFn (sub : Nat) (alpha : Word) (a b : Val) : Word :=
  match sub with
  | 0 => round32 (a.add b)
  | 1 => round32 (a.add b.neg)
  | 2 => round32 (a.mul b)
  | 3 => round32 (a.max2 b)
  | 4 => round32 (a.min2 b)
  | 5 => round32 (a.mul (val32 alpha))
  | 7 => round32 ((val32 (epiFn 3 (round32 a))).mul b)
  | 6 => round32 a
  | _ => epiFn (sub - 0x10) (round32 a)

/-- ELEM (R146); `b` broadcasts along the axes where it has size 1. -/
def elemOut (cv : Cv) (sub : Nat) (alpha : Word) (a : Ten) (b : Option Ten) (fo : Fmt) (slot : Nat) : OpOut :=
  let row := fun (i m : Nat) =>
    let xs := (a.row i m).decode cv.satfinite a.fmt
    match b with
    | none => xs.map (fun x => elemFn sub alpha x Val.zero)
    | some t =>
      let ys := (t.row (if t.batch = 1 then 0 else i) (if t.rows = 1 then 0 else m)).decode cv.satfinite t.fmt
      (xs.zip ys).map (fun p => elemFn sub alpha p.1 p.2)
  let rows := ((List.range a.batch).map (fun i => (List.range a.rows).map (row i))).flatten
  convTen cv fo a.batch a.rows a.cols slot 0 (vals rows)

/-- NORM of one row (R147). -/
def normRow (sub : Nat) (eps : Word) (gamma : List Word) (beta : Option (List Word)) (x : List Word) : List Word :=
  let rc := divRound32 1 x.length
  let d := if sub = 0 then
      let mu := mul32 (vsum x) rc
      x.map (fun v => sub32 v mu)
    else x
  let v := mul32 (vsum (d.map (fun u => mul32 u u))) rc
  let r := rsqrt32 (add32 v eps)
  let y := (d.zip gamma).map (fun p => mul32 (mul32 p.1 r) p.2)
  match beta with
  | some b => (y.zip b).map (fun p => add32 p.1 p.2)
  | none => y

/-- NORM (R147): T0 x, T1 out, T2 γ, optional T3 β. -/
def normOut (cv : Cv) (sub : Nat) (eps : Word) (x gamma : Ten) (beta : Option Ten) (fo : Fmt) : OpOut :=
  let g := (gamma.words cv.satfinite).getD 0 []
  let b := beta.map (fun t => (t.words cv.satfinite).getD 0 [])
  convTen cv fo x.batch x.rows x.cols 1 0 (vals ((x.words cv.satfinite).map (normRow sub eps g b)))

/-- One reduction over a list in logical order (R149). -/
def reduceList (kind : Nat) (l : List Word) : Word :=
  match kind with
  | 0 => vsum l
  | 1 => maxOf l
  | 2 => minOf l
  | _ => mul32 (vsum l) (divRound32 1 l.length)

/-- REDUCE (R149): SUBOP[1:0] the kind, SUBOP[4] the axis. -/
def reduceOut (cv : Cv) (sub : Nat) (x : Ten) (fo : Fmt) : OpOut :=
  let kind := sub % 4
  if sub.testBit 4 then
    let rows := (List.range x.batch).map (fun b =>
      let rs := (x.batchRows b).map (fun r => (r.decode cv.satfinite x.fmt).map round32)
      (List.range x.cols).map (fun c => reduceList kind (rs.map (fun r => r.getD c zero32))))
    convTen cv fo x.batch 1 x.cols 1 0 (vals rows)
  else convTen cv fo x.batch x.rows 1 1 0 (vals ((x.words cv.satfinite).map (fun r => [reduceList kind r])))

/-! ### Gather, scatter and routing (R150 to R152) -/

/-- The row that an out-of-range index gathers (R150). -/
def zeroCRow (f : Fmt) (n : Nat) : CRow :=
  ⟨List.replicate n 0, if f.isMx then List.replicate (ceilDiv n 32) 0x7F else [], []⟩

/-- GATHER (R150): T0 table, T1 indices, T2 out. -/
def gatherOut (cv : Cv) (t idx : Ten) (fo : Fmt) : OpOut :=
  let is := idx.ints.map (fun r => r.getD 0 0)
  let inside := fun (i : Int) => decide (0 ≤ i) && decide (i < (t.rows : Int))
  let aux := (is.filter (fun i => !inside i)).length
  if t.fmt = fo then
    { tens := [(2, ⟨fo, 1, is.length, t.cols,
        is.map (fun i => if inside i then t.row 0 i.toNat else zeroCRow fo t.cols)⟩)],
      sats := 0, nonfin := 0, aux := aux, flag := false }
  else
    convTen cv fo 1 is.length t.cols 2 aux (is.map (fun i =>
      if inside i then (t.row 0 i.toNat).decode cv.satfinite t.fmt else List.replicate t.cols Val.zero))

/-- SCATTER_ADD (R150): T0 src, T1 indices, T2 dest, all values FP32. -/
def scatterOut (src idx dest : Ten) : OpOut :=
  let is := idx.ints.map (fun r => r.getD 0 0)
  let pairs := is.zip (src.words true)
  let rows := ((dest.words true).zip (List.range dest.rows)).map (fun d =>
    pairs.foldl (fun acc p =>
      if p.1 = (d.2 : Int) then (acc.zip p.2).map (fun x => add32 x.1 x.2) else acc) d.1)
  { tens := [(2, ⟨.fp32, 1, dest.rows, dest.cols, rows.map (fun r => ⟨r.map BitVec.toNat, [], []⟩)⟩)],
    sats := 0, nonfin := 0,
    aux := (is.filter (fun i => !(decide (0 ≤ i) && decide (i < (dest.rows : Int))))).length, flag := false }

/-- Does logit `a` (of index i) rank before logit `b` (of index j): descending, ties to the lower index, NaN lowest
(R151, R154)? -/
def ranksBefore (a b : Word × Nat) : Bool :=
  let x := val32 a.1
  let y := val32 b.1
  if x.isNan then y.isNan && decide (a.2 < b.2)
  else if y.isNan then true
  else if Val.lt y x then true
  else if Val.lt x y then false
  else decide (a.2 < b.2)

/-- Insertion of an entry by rank. -/
def insertRank (a : Word × Nat) : List (Word × Nat) → List (Word × Nat)
  | [] => [a]
  | b :: r => if ranksBefore a b then a :: b :: r else b :: insertRank a r

/-- The entries of a row by rank. -/
def rankRow (r : List Word) : List (Word × Nat) :=
  (r.zip (List.range r.length)).foldl (fun acc e => insertRank e acc) []

/-- One row of INT32 codes. -/
def intRow (l : List Int) : CRow := ⟨l.map (codeOf 32), [], []⟩

/-- MOE_DISPATCH (R151): T0 logits, T1 slot map, T2 offsets, T3 gates, T4 order; `k` from SUBOP, capacity `cap`. -/
def moeDispatchOut (k cap : Nat) (alpha : Word) (logits : Ten) : OpOut :=
  let sel := (logits.words true).map (fun r => (rankRow r).take k)
  let gates := sel.map (fun s => (softmaxRow (s.map (fun e => mul32 e.1 alpha))).1)
  -- assignments (expert, token, j), sorted by expert, then token, then j
  let asg := ((sel.zip (List.range sel.length)).map (fun p =>
    (p.1.zip (List.range k)).map (fun q => (q.1.2, p.2, q.2)))).flatten
  let byExp := (List.range logits.cols).map (fun e => asg.filter (fun a => decide (a.1 = e)))
  let kept := byExp.map (fun l => if cap = 0 then l else l.take cap)
  let keep := kept.flatten
  let offs := (List.range (logits.cols + 1)).map (fun e => (((kept.take e).map List.length).foldl (· + ·) 0 : Nat))
  let slotOf := fun (t j : Nat) =>
    ((keep.zip (List.range keep.length)).find? (fun p => decide (p.1.2.1 = t) && decide (p.1.2.2 = j)))
  let slots := (List.range logits.rows).map (fun t => (List.range k).map (fun j =>
    match slotOf t j with
    | some p => (p.2 : Int)
    | none => -1))
  let order := (List.range (logits.rows * k)).map (fun i =>
    match keep[i]? with
    | some a => (a.2.1 : Int)
    | none => -1)
  { tens := [(1, ⟨.int32, 1, logits.rows, k, slots.map intRow⟩),
             (2, ⟨.int32, 1, 1, logits.cols + 1, [intRow (offs.map Int.ofNat)]⟩),
             (3, ⟨.fp32, 1, logits.rows, k, gates.map (fun g => ⟨g.map BitVec.toNat, [], []⟩)⟩),
             (4, ⟨.int32, 1, 1, logits.rows * k, [intRow order]⟩)],
    sats := 0, nonfin := 0, aux := asg.length - keep.length, flag := false }

/-- MOE_COMBINE (R152): T0 expert rows, T1 slot map, T2 gates, T3 out. A slot that names no row and is not −1 is a value
the spec does not state: `free` supplies it. -/
def moeCombineOut (cv : Cv) (free : Nat → Word) (x slots gates : Ten) (fo : Fmt) : OpOut :=
  let xs := (x.words cv.satfinite)
  let k := slots.cols
  let rows := ((slots.ints.zip (gates.words cv.satfinite)).zip (List.range slots.rows)).map (fun p =>
    (List.range x.cols).map (fun d =>
      ((p.1.1.zip p.1.2).zip (List.range k)).foldl (fun acc q =>
        if q.1.1 = -1 then acc
        else
          let v := if decide (0 ≤ q.1.1) && decide (q.1.1 < (x.rows : Int)) then (xs.getD q.1.1.toNat []).getD d zero32
            else free ((p.2 * k + q.2) * x.cols + d)
          add32 acc (mul32 q.1.2 v)) zero32))
  convTen cv fo 1 slots.rows x.cols 3 0 (vals rows)

/-! ### Storage and sampling operators (R153, R154) -/

/-- QUANT and DEQUANT (R153): convert(decode()). -/
def requantOut (cv : Cv) (x : Ten) (fo : Fmt) : OpOut :=
  convTen cv fo x.batch x.rows x.cols 1 0 (x.data.map (fun r => r.decode cv.satfinite x.fmt))

/-- RELAY SUBOP 0 (R153): every value bit for bit unchanged. -/
def relayOut (x : Ten) : OpOut := { tens := [(1, x)], sats := 0, nonfin := 0, aux := 0, flag := false }

/-- RELAY SUBOP 1 (R153): rows and columns of a dense, non-MX tensor exchanged. -/
def transposeOut (x : Ten) : OpOut :=
  let data := ((List.range x.batch).map (fun b =>
    let rs := x.batchRows b
    (List.range x.cols).map (fun c => (⟨rs.map (fun r => r.codes.getD c 0), [], []⟩ : CRow)))).flatten
  { tens := [(1, ⟨x.fmt, x.batch, x.cols, x.rows, data⟩)], sats := 0, nonfin := 0, aux := 0, flag := false }

/-- The kept prefix of candidates whose running sum first reaches `p` (R154). -/
def topP (p : Word) : Word → List (Word × Nat) → List (Word × Nat)
  | _, [] => []
  | c, e :: r =>
    let c' := add32 c e.1
    if !(val32 c').isNan && !(val32 p).isNan && !(Val.lt (val32 c') (val32 p)) then [e] else e :: topP p c' r

/-- The first kept candidate whose running sum exceeds `t`, else the last kept (R154). -/
def pickToken (t : Word) : Word → List (Word × Nat) → Option Nat
  | _, [] => none
  | c, e :: r =>
    let c' := add32 c e.1
    if Val.lt (val32 t) (val32 c') then some e.2
    else match r with
      | [] => some e.2
      | _ => pickToken t c' r

/-- SAMPLE of one row (R154); `free` is the token where the spec states none (no candidate is left). The Bool says that
every logit was NaN. -/
def sampleRow (cv : Cv) (mode k : Nat) (p temp free : Word) (b : Nat) (row : List Word) : Int × Bool :=
  let ranked := (rankRow row).filter (fun e => !(val32 e.1).isNan)
  if ranked.isEmpty then (-1, true) else
  let tv := val32 temp
  if mode = 0 || (!tv.isNan && !(Val.lt Val.zero tv)) then (((ranked.map Prod.snd).headD 0 : Nat), false) else
  let z := row.map (fun x => mul32 x (recip32 temp))
  let cand := (rankRow z).filter (fun e => !(val32 e.1).isNan)
  let cand := if (mode = 1 || mode = 3) && k > 0 then cand.take k else cand
  let ps := (softmaxRow (cand.map Prod.fst)).1.zip (cand.map Prod.snd)
  let kept := if mode = 2 || mode = 3 then topP p zero32 ps else ps
  let s := kept.foldl (fun a e => add32 a e.1) zero32
  let u := round32 (.fin false (variate cv.seed cv.stream 0 b) (-24))
  match pickToken (mul32 u s) zero32 kept with
  | some i => ((i : Int), false)
  | none => (signedOf 32 free.toNat, false)

/-- SAMPLE (R154): T0 logits, T1 tokens; PARAM0 k, PARAM1 p, PARAM2 temperature. -/
def sampleOut (cv : Cv) (mode k : Nat) (p temp : Word) (free : Nat → Word) (x : Ten) : OpOut :=
  let rs := ((x.words cv.satfinite).zip (List.range (x.words cv.satfinite).length)).map (fun r => sampleRow cv mode k p temp (free r.2) r.2 r.1)
  let bad := (rs.filter Prod.snd).length
  { tens := [(1, ⟨.int32, x.batch, x.rows, 1, rs.map (fun r => intRow [r.1])⟩)],
    sats := 0, nonfin := 0, aux := bad, flag := decide (bad ≠ 0) }

/-! ### The fulled form (R47, R48) -/

/-- The 24-bit mantissa of one gradient element under block exponent `e`: the value, whether it saturated, and whether
the element was NaN or infinite. -/
def fulledElem (e : Int) (g : Val) : Int × Bool × Bool :=
  match g with
  | .fin neg m x =>
    let r := ratOf m (x + 23 - e)
    let k := (inUnits r.1 r.2 0).1
    let rem := (inUnits r.1 r.2 0).2.1
    let up := decide (2 * rem > r.2) || (decide (2 * rem = r.2) && decide (k % 2 = 1))
    let q := if up then k + 1 else k
    let sat := decide (q > 2 ^ 23 - 1)
    let q := min q (2 ^ 23 - 1)
    (if neg then -(q : Int) else q, sat, false)
  | _ => (0, false, true)

end Sys2Proof.Machine
end

