-- ==== Sys2Proof/Machine/Operands.lean ====
section
/-! DEFINITION. Descriptors, tensor slots and storage forms: reading a tensor from memory and laying one out in it
(05_sniash: R125 to R131; 04_sparsity: R97, R98, R101, R102, R115 to R117; 08: R242; 02: R30, R51). Memory is read through
a function from addresses to bytes, so that every tier is read alike. -/
namespace Sys2Proof.Machine

/-- `n` bytes from address `a`. -/
def bytesOf (rd : Nat → Byte) (a n : Nat) : Bytes := (List.range n).map (fun i => rd (a + i))

/-- A little-endian number of `n` bytes at address `a`. -/
def natAt (rd : Nat → Byte) (a n : Nat) : Nat := leNat (bytesOf rd a n)

/-! ### Descriptors -/

/-- A tensor slot (R126). -/
structure Slot where
  addr : Nat
  fmt : Nat
  kind : Nat
  arr : Nat
  scale : Nat
  rows : Nat
  cols : Nat
  batch : Nat
  deriving DecidableEq, Repr

/-- A slot's 16 bytes read by R126. -/
def Slot.ofNat (v : Nat) : Slot :=
  ⟨64 * bitsOf v 45 0, bitsOf v 49 46, bitsOf v 53 50, bitsOf v 57 54, bitsOf v 69 58, bitsOf v 93 70, bitsOf v 117 94,
    bitsOf v 127 118 + 1⟩

/-- A descriptor (R125). -/
structure Desc where
  level : Nat
  opcode : Nat
  subop : Nat
  ntens : Nat
  flags : Nat
  granule : Nat
  epi : Nat
  tag : Nat
  budget : Nat
  stream : Nat
  seed : Nat
  alpha : Word
  slots : List Slot
  params : List Nat
  /-- Some reserved bit is set (R132). -/
  rsvd : Bool
  deriving DecidableEq, Repr

/-- The 128 bytes of a descriptor read by R125, R126 and R131. -/
def Desc.ofBytes (bs : Bytes) : Desc :=
  let w0 := leAt bs 0 4
  let w1 := leAt bs 4 4
  let w3 := leAt bs 12 4
  let nt := bitsOf w0 26 24
  { level := bitsOf w0 7 0, opcode := bitsOf w0 15 8, subop := bitsOf w0 23 16, ntens := nt,
    flags := bitsOf w1 15 0, granule := bitsOf w1 21 16, epi := bitsOf w1 31 24, tag := leAt bs 8 4,
    budget := bitsOf w3 15 0, stream := leAt bs 16 4, seed := leAt bs 20 8, alpha := BitVec.ofNat 32 (leAt bs 28 4),
    slots := (List.range 6).map (fun i => Slot.ofNat (leAt bs (32 + 16 * i) 16)),
    params := (List.range 4).map (fun i => if nt = 6 then 0 else leAt bs (112 + 4 * i) 4),
    rsvd := decide (bitsOf w0 31 27 ≠ 0) || decide (bitsOf w1 15 7 ≠ 0) || decide (bitsOf w1 23 22 ≠ 0) ||
      decide (bitsOf w3 31 16 ≠ 0) }

/-- Slot `i`. -/
def Desc.slot (d : Desc) (i : Nat) : Slot := d.slots.getD i (Slot.ofNat 0)

/-- PARAM`i`. -/
def Desc.param (d : Desc) (i : Nat) : Nat := d.params.getD i 0

/-- FLAGS bits (R130). -/
def Desc.satfinite (d : Desc) : Bool := d.flags.testBit 0
def Desc.sround (d : Desc) : Bool := d.flags.testBit 1
def Desc.digestEn (d : Desc) : Bool := d.flags.testBit 2
def Desc.quarter (d : Desc) : Bool := d.flags.testBit 3
def Desc.fence (d : Desc) : Bool := d.flags.testBit 4
def Desc.irq (d : Desc) : Bool := d.flags.testBit 5
def Desc.accum (d : Desc) : Bool := d.flags.testBit 6

/-- The numeric choices that conversions use. -/
def Desc.cv (d : Desc) : Cv := ⟨d.satfinite, d.sround, d.seed, d.stream⟩

/-! ### Geometry of storage -/

/-- `n` rounded up to a multiple of `k`. -/
def roundUp (n k : Nat) : Nat := ceilDiv n k * k

/-- N and M of a structured kind (R96, R97). -/
def nmOf (kind : Nat) : Nat × Nat :=
  match kind with
  | 1 => (2, 4) | 2 => (1, 4) | 3 => (2, 8) | 4 => (4, 8)
  | _ => (1, 1)

/-- A structured kind. -/
def isNm (kind : Nat) : Bool := decide (1 ≤ kind) && decide (kind ≤ 4)

/-- Bits of one N:M index, and bytes of one metadata word (R98). -/
def nmIndexBits (kind : Nat) : Nat := if kind ≤ 2 then 2 else 3
def nmWordBytes (kind : Nat) : Nat :=
  match kind with
  | 2 => 2 | 4 => 6
  | _ => 4

/-- Stored elements of one 32-index block (R97). -/
def storedPerBlock (kind : Nat) : Nat := if isNm kind then 32 * (nmOf kind).1 / (nmOf kind).2 else 32

/-- The format of a slot; FP32 for a reserved code, which validation refuses first. -/
def Slot.f (s : Slot) : Fmt := (Fmt.ofCode s.fmt).getD .fp32

/-- 32-index blocks along a row. -/
def Slot.blocks (s : Slot) : Nat := ceilDiv s.cols 32

/-- Stored elements of one row: MX and structured rows hold whole blocks (R97, R127; DEDUCED for a structured row whose
COLS is not a multiple of 32, notes/assumptions/11.md). -/
def Slot.rowElems (s : Slot) : Nat :=
  if isNm s.kind then s.blocks * storedPerBlock s.kind else if s.f.isMx then s.blocks * 32 else s.cols

/-- Bytes of one stored row (R30). -/
def Slot.rowBytes (s : Slot) : Nat := ceilDiv (s.rowElems * s.f.bits) 8

/-- Distance between rows: arrangement 1 starts every row on a 64 B boundary (R127). -/
def Slot.stride (s : Slot) : Nat := if s.arr = 1 then roundUp s.rowBytes 64 else s.rowBytes

/-- Rows of all batches. -/
def Slot.allRows (s : Slot) : Nat := s.batch * s.rows

/-- Bitmap tiles of one batch, and over all batches (R101). -/
def Slot.rowTiles (s : Slot) : Nat := ceilDiv s.rows 32
def Slot.tiles (s : Slot) : Nat := s.batch * s.rowTiles * s.blocks

/-- Bytes of the tile offset table (R101). -/
def Slot.tableBytes (s : Slot) : Nat := 64 * ceilDiv (4 * s.tiles) 64

/-- 64 B units of the longest record of a format (R101). -/
def maxRecUnits (w : Nat) : Nat := ceilDiv (144 + 128 * w) 64

/-- One lane-tiled record's bytes before its 64 B rounding, and its stride (R242). -/
def Slot.laneRecBytes (s : Slot) : Nat :=
  ceilDiv (storedPerBlock s.kind * 1024 * s.f.bits) 8 + (if s.f.isMx then 1024 else 0) +
    (if isNm s.kind then 1024 * nmWordBytes s.kind else 0)
def Slot.laneRec (s : Slot) : Nat := roundUp s.laneRecBytes 64

/-- Panels of 1,024 rows, and the bytes of one batch in arrangement 2 (R242). -/
def Slot.panels (s : Slot) : Nat := ceilDiv s.rows 1024
def Slot.laneBatch (s : Slot) : Nat := s.panels * s.blocks * s.laneRec

/-- The largest extent of a tensor in bytes (R101, R133). -/
def Slot.extent (s : Slot) : Nat :=
  if s.kind = 5 then s.tableBytes + 64 * maxRecUnits s.f.bits * s.tiles
  else if s.arr = 2 then s.batch * s.laneBatch
  else if s.allRows = 0 then 0
  else (s.allRows - 1) * s.stride + s.rowBytes

/-- Bytes of the scale array and of the metadata array that a tensor uses through its handle (R129). -/
def Slot.inlineMeta (s : Slot) : Bool := decide (s.arr = 2) && decide (s.kind ≠ 5)
def Slot.scaleBytes (s : Slot) : Nat := if s.f.isMx && !s.inlineMeta then s.allRows * s.blocks else 0
def Slot.metaBytes (s : Slot) : Nat := if isNm s.kind && !s.inlineMeta then s.allRows * s.blocks * nmWordBytes s.kind else 0

/-! ### Reading a tensor -/

/-- The N:M indices of one block: for each group, its N positions (R98). -/
def nmIndices (kind word : Nat) : List (List Nat) :=
  let (n, m) := nmOf kind
  let b := nmIndexBits kind
  (List.range (32 / m)).map (fun g => (List.range n).map (fun i => word / 2 ^ (b * (n * g + i)) % 2 ^ b))

/-- Strictly ascending (R97). -/
def ascending : List Nat → Bool
  | a :: b :: r => decide (a < b) && ascending (b :: r)
  | _ => true

/-- Spreads the stored codes of one block over its 32 positions: code and whether stored. -/
def nmSpread (kind word : Nat) (codes : List Nat) : List (Nat × Bool) :=
  let (n, m) := nmOf kind
  ((nmIndices kind word).zip (chunks n codes)).map (fun p =>
    (List.range m).map (fun k =>
      match (p.1.zip p.2).find? (fun q => decide (q.1 = k)) with
      | some q => (q.2, true)
      | none => (0, false))) |>.flatten

/-- A row from its stored codes, its scales and its metadata words. -/
def rowOf (s : Slot) (codes scales words : List Nat) : CRow :=
  if isNm s.kind then
    let ps := (((chunks (storedPerBlock s.kind) codes).zip words).map (fun p => nmSpread s.kind p.2 p.1)).flatten.take s.cols
    ⟨ps.map Prod.fst, scales, ps.map Prod.snd⟩
  else ⟨codes.take s.cols, scales, []⟩

/-- A row of arrangement 0 or 1, dense or structured, by its index over all batches; `sa` and `ma` are the scale and
metadata array addresses. -/
def readPackedRow (rd : Nat → Byte) (s : Slot) (sa ma R : Nat) : CRow :=
  let codes := unpackCodes s.f.bits s.rowElems (bytesOf rd (s.addr + R * s.stride) s.rowBytes)
  let scales := if s.f.isMx then (List.range s.blocks).map (fun k => (rd (sa + R * s.blocks + k)).toNat) else []
  let wb := nmWordBytes s.kind
  let words := if isNm s.kind then (List.range s.blocks).map (fun k => natAt rd (ma + (R * s.blocks + k) * wb) wb) else []
  rowOf s codes scales words

/-- Bits `[lo, lo + n)` of memory from a byte address. -/
def bitsAt (rd : Nat → Byte) (a lo n : Nat) : Nat := natAt rd (a + lo / 8) (ceilDiv (lo % 8 + n) 8) / 2 ^ (lo % 8) % 2 ^ n

/-- A row of arrangement 2, dense or structured (R242). -/
def readLaneRow (rd : Nat → Byte) (s : Slot) (R : Nat) : CRow :=
  let b := R / s.rows
  let r := R % s.rows
  let w := s.f.bits
  let sp := storedPerBlock s.kind
  let rec0 := fun (k : Nat) => s.addr + b * s.laneBatch + (r / 1024 * s.blocks + k) * s.laneRec
  let codes := ((List.range s.blocks).map (fun k =>
    (List.range sp).map (fun i => bitsAt rd (rec0 k) ((i * 1024 + r % 1024) * w) w))).flatten
  let after := ceilDiv (sp * 1024 * w) 8
  let scales := if s.f.isMx then (List.range s.blocks).map (fun k => (rd (rec0 k + after + r % 1024)).toNat) else []
  let wb := nmWordBytes s.kind
  let words := if isNm s.kind then (List.range s.blocks).map (fun k =>
    natAt rd (rec0 k + after + (if s.f.isMx then 1024 else 0) + (r % 1024) * wb) wb) else []
  rowOf s codes scales words

/-- Address of a bitmap tile's record (R101). -/
def recAddr (rd : Nat → Byte) (s : Slot) (t : Nat) : Nat := s.addr + 64 * natAt rd (s.addr + 4 * t) 4

/-- The bitmap of a record, as a number. -/
def recBitmap (rd : Nat → Byte) (a : Nat) : Nat := natAt rd (a + 16) 128

/-- A record's COUNT (R101). -/
def recCount (rd : Nat → Byte) (s : Slot) (t : Nat) : Nat := bitsOf (natAt rd (recAddr rd s t) 4) 10 0

/-- Length of a record in 64 B units (R101). -/
def recUnits (count w : Nat) : Nat := ceilDiv (144 + ceilDiv (count * w) 8) 64

/-- The check of R102 on tile `t` (over all batches, row-major). -/
def recOk (rd : Nat → Byte) (s : Slot) (t : Nat) : Bool :=
  let off := natAt rd (s.addr + 4 * t) 4
  let a := recAddr rd s t
  let h := natAt rd a 4
  let count := bitsOf h 10 0
  let bm := recBitmap rd a
  let rt := t / s.blocks % s.rowTiles
  let kt := t % s.blocks
  let units := bitsOf h 28 24
  decide (count = popcount 1024 bm) &&
    (bitList 1024 bm).all (fun p => decide (rt * 32 + p / 32 < s.rows) && decide (kt * 32 + p % 32 < s.cols)) &&
    decide (bitsOf h 19 16 = s.fmt) && decide (units = recUnits count s.f.bits) &&
    decide (64 * off ≥ s.tableBytes) && decide (64 * (off + units) ≤ s.extent)

/-- A bitmap tile's 1,024 positions: code and whether stored. -/
def readTile (rd : Nat → Byte) (s : Slot) (t : Nat) : List (Nat × Bool) :=
  let a := recAddr rd s t
  let bm := recBitmap rd a
  let w := s.f.bits
  ((List.range 1024).foldl (fun (acc : List (Nat × Bool) × Nat) p =>
    if bm.testBit p then ((bitsAt rd (a + 144) (w * acc.2) w, true) :: acc.1, acc.2 + 1) else ((0, false) :: acc.1, acc.2))
    ([], 0)).1.reverse

/-- Every row of a bitmap tensor (R101). -/
def readBitmapRows (rd : Nat → Byte) (s : Slot) (sa : Nat) : List CRow :=
  let tiles := (List.range s.tiles).map (readTile rd s)
  (List.range s.allRows).map (fun R =>
    let b := R / s.rows
    let r := R % s.rows
    let ps := ((List.range s.blocks).map (fun k =>
      ((tiles.getD ((b * s.rowTiles + r / 32) * s.blocks + k) []).drop (32 * (r % 32))).take 32)).flatten.take s.cols
    let scales := if s.f.isMx then (List.range s.blocks).map (fun k => (rd (sa + R * s.blocks + k)).toNat) else []
    ⟨ps.map Prod.fst, scales, ps.map Prod.snd⟩)

/-- The tensor that a slot names, read from memory. -/
def readTen (rd : Nat → Byte) (s : Slot) (sa ma : Nat) : Ten :=
  { fmt := s.f, batch := s.batch, rows := s.rows, cols := s.cols,
    data := if s.kind = 5 then readBitmapRows rd s sa
      else if s.arr = 2 then (List.range s.allRows).map (readLaneRow rd s)
      else (List.range s.allRows).map (readPackedRow rd s sa ma) }

/-- Every metadata word of a structured tensor holds strictly ascending indices in each group (R97, R99). -/
def nmOk (rd : Nat → Byte) (s : Slot) (ma : Nat) : Bool :=
  if !isNm s.kind then true
  else
    let wb := nmWordBytes s.kind
    (List.range s.allRows).all (fun R => (List.range s.blocks).all (fun k =>
      let a := if s.arr = 2 then
          s.addr + (R / s.rows) * s.laneBatch + (R % s.rows / 1024 * s.blocks + k) * s.laneRec +
            ceilDiv (storedPerBlock s.kind * 1024 * s.f.bits) 8 + (if s.f.isMx then 1024 else 0) + (R % s.rows % 1024) * wb
        else ma + (R * s.blocks + k) * wb
      (nmIndices s.kind (natAt rd a wb)).all ascending))

/-- Every record of a bitmap tensor passes R102. -/
def recsOk (rd : Nat → Byte) (s : Slot) : Bool := if s.kind = 5 then (List.range s.tiles).all (recOk rd s) else true

/-! ### Laying a tensor out -/

/-- Codes padded with zeros to `n`. -/
def padCodes (n : Nat) (cs : List Nat) : List Nat := cs ++ List.replicate (n - cs.length) 0

/-- One block's stored positions for RELAY: per group, its non-zeros, then the lowest-indexed zero positions, ascending;
none when a group has more than N non-zeros (R153). -/
def nmChoose (kind : Nat) (codes : List Nat) : Option (List Nat × Nat) :=
  let (n, m) := nmOf kind
  let b := nmIndexBits kind
  let gs := (chunks m codes).map (fun g =>
    let nz := (List.range m).filter (fun k => decide (g.getD k 0 ≠ 0))
    let zs := ((List.range m).filter (fun k => decide (g.getD k 0 = 0))).take (n - nz.length)
    let pos := (List.range m).filter (fun k => nz.contains k || zs.contains k)
    (pos, pos.map (fun k => g.getD k 0)))
  if gs.any (fun g => decide (g.1.length > n)) then none
  else some ((gs.map Prod.snd).flatten, packNat b (gs.map Prod.fst).flatten)

/-- A block's stored codes and metadata word under a kind; dense blocks store all 32. -/
def storeBlock (kind : Nat) (codes : List Nat) : Option (List Nat × Nat) :=
  if isNm kind then nmChoose kind codes else some (codes, 0)

/-- The 32-index blocks of a row, padded with zeros. -/
def rowBlocks (s : Slot) (r : CRow) : List (List Nat) := chunks 32 (padCodes (32 * s.blocks) r.codes)

/-- The writes of a row in arrangement 0 or 1: values, scales and metadata; none for PATTERN. -/
def writePackedRow (s : Slot) (sa ma R : Nat) (r : CRow) : Option (List (Nat × Bytes)) :=
  let wb := nmWordBytes s.kind
  let blks := (rowBlocks s r).map (storeBlock s.kind)
  if blks.any Option.isNone then none
  else
    let st := blks.map (fun b => b.getD ([], 0))
    let codes := if isNm s.kind || s.f.isMx then (st.map Prod.fst).flatten else r.codes
    some ([(s.addr + R * s.stride, packCodes s.f.bits codes)] ++
      (if s.f.isMx then [(sa + R * s.blocks, r.scales.map (BitVec.ofNat 8))] else []) ++
      (if isNm s.kind then [(ma + R * s.blocks * wb, (st.map (fun b => toLE wb b.2)).flatten)] else []))

/-- The writes of a whole lane-tiled tensor, record by record (R242). -/
def writeLane (s : Slot) (rows : List CRow) : Option (List (Nat × Bytes)) :=
  let wb := nmWordBytes s.kind
  let sp := storedPerBlock s.kind
  let blksOf := rows.map (fun r => (rowBlocks s r).map (storeBlock s.kind))
  if blksOf.any (fun bs => bs.any Option.isNone) then none
  else
    let zero : List Nat × Nat := ([], 0)
    some ((List.range s.batch).flatMap (fun b => (List.range s.panels).flatMap (fun p => (List.range s.blocks).map (fun k =>
      let cell := fun (i : Nat) =>
        let r := p * 1024 + i
        if r < s.rows then ((blksOf.getD (b * s.rows + r) []).getD k none).getD zero else zero
      let cells := (List.range 1024).map cell
      let vals := (List.range sp).flatMap (fun j => cells.map (fun c => c.1.getD j 0))
      let scales := (List.range 1024).map (fun i =>
        let r := p * 1024 + i
        BitVec.ofNat 8 (if r < s.rows then ((rows.getD (b * s.rows + r) ⟨[], [], []⟩).scales.getD k 0x7F) else 0x7F))
      let bytes := packCodes s.f.bits vals ++ (if s.f.isMx then scales else []) ++
        (if isNm s.kind then cells.flatMap (fun c => toLE wb c.2) else [])
      (s.addr + b * s.laneBatch + (p * s.blocks + k) * s.laneRec, padTo 64 bytes)))))

/-- One bitmap record of a tile: its bytes (R101). -/
def tileRecord (s : Slot) (codes : List Nat) : Bytes :=
  let bm := maskOfList ((List.range 1024).filter (fun p => decide (codes.getD p 0 ≠ 0)))
  let nz := codes.filter (fun c => decide (c ≠ 0))
  let units := recUnits nz.length s.f.bits
  let h := nz.length + s.fmt <<< 16 + units <<< 24
  slice (toLE 4 h ++ List.replicate 12 0 ++ toLE 128 bm ++ packCodes s.f.bits nz) 0 (64 * units)

/-- The writes of a bitmap tensor: the offset table, then the records one after another in row-major order (DESIGN CHOICE for
the records' places, notes/assumptions/12.md). -/
def writeBitmap (s : Slot) (sa : Nat) (rows : List CRow) : List (Nat × Bytes) :=
  let recs := (List.range s.tiles).map (fun t =>
    let b := t / (s.rowTiles * s.blocks)
    let rt := t / s.blocks % s.rowTiles
    let kt := t % s.blocks
    tileRecord s ((List.range 32).flatMap (fun i =>
      let r := rt * 32 + i
      let row := if r < s.rows then (rows.getD (b * s.rows + r) ⟨[], [], []⟩).codes else []
      (List.range 32).map (fun j => row.getD (kt * 32 + j) 0))))
  let offs := recs.foldl (fun (acc : List Nat × Nat) r => (acc.1 ++ [acc.2], acc.2 + r.length / 64)) ([], s.tableBytes / 64)
  [(s.addr, slice (offs.1.flatMap (toLE 4)) 0 s.tableBytes)] ++
    (recs.zip offs.1).map (fun p => (s.addr + 64 * p.2, p.1)) ++
    (if s.f.isMx then [(sa, rows.flatMap (fun r => r.scales.map (BitVec.ofNat 8)))] else [])

/-- The writes that lay a tensor out as a slot names it; none when a group does not fit its N:M kind (PATTERN, R153). -/
def writeTen (s : Slot) (sa ma : Nat) (t : Ten) : Option (List (Nat × Bytes)) :=
  if s.kind = 5 then some (writeBitmap s sa t.data)
  else if s.arr = 2 then writeLane s t.data
  else
    let ws := (t.data.zip (List.range t.data.length)).map (fun p => writePackedRow s sa ma p.2 p.1)
    if ws.any Option.isNone then none else some (ws.map (fun w => w.getD [])).flatten

/-- The logical byte stream of a tensor for its digest: row by row, MX rows as whole blocks each followed by its scale
byte (R51). -/
def digestStream (t : Ten) : Bytes :=
  t.data.flatMap (fun r =>
    if t.fmt.isMx then
      let nb := ceilDiv t.cols 32
      ((chunks 32 (padCodes (32 * nb) r.codes)).zip (r.scales ++ List.replicate nb 0x7F)).flatMap (fun p =>
        packCodes t.fmt.bits p.1 ++ [BitVec.ofNat 8 p.2])
    else packCodes t.fmt.bits r.codes)

/-! ### Link blocks (R115 to R117) -/

/-- Bytes of a link block in the dense and in the sparse form, padded to 4 B. -/
def denseLen (w n : Nat) : Nat := roundUp (4 + ceilDiv (w * n) 8) 4
def sparseLen (w count : Nat) : Nat := roundUp (36 + ceilDiv (w * count) 8) 4

/-- The encoder of R116: the sparse form only where it is allowed and strictly shorter. -/
def encodeBlock (allowed : Bool) (w : Nat) (codes : List Nat) : Bytes :=
  let n := codes.length
  let nz := codes.filter (fun c => decide (c ≠ 0))
  if allowed && decide (sparseLen w nz.length < denseLen w n) then
    let bm := maskOfList ((List.range n).filter (fun i => decide (codes.getD i 0 ≠ 0)))
    slice (toLE 4 nz.length ++ toLE 32 bm ++ packCodes w nz) 0 (sparseLen w nz.length)
  else slice (toLE 4 (n + 512) ++ packCodes w codes) 0 (denseLen w n)

/-- Decodes the first link block of a byte string, of `n` elements of width `w`: its codes and the bytes after it; none
when it is malformed (R117). -/
def decodeBlock (denseOnly : Bool) (w n : Nat) (bs : Bytes) : Option (List Nat × Bytes) :=
  let h := leAt bs 0 4
  let count := bitsOf h 8 0
  if bs.length < 4 then none
  else if h.testBit 9 then
    let len := denseLen w n
    if count ≠ n ∨ bs.length < len then none
    else some (unpackCodes w n ((bs.drop 4).take (len - 4)), bs.drop len)
  else
    let len := sparseLen w count
    let bm := leAt bs 4 32
    if denseOnly ∨ count > 256 ∨ bs.length < len ∨ popcount 256 bm ≠ count ∨ bm ≥ 2 ^ n ∨ denseLen w n ≤ len then none
    else
      let vs := unpackCodes w count ((bs.drop 36).take (len - 36))
      let codes := ((List.range n).foldl (fun (acc : List Nat × List Nat) i =>
        if bm.testBit i then (acc.2.headD 0 :: acc.1, acc.2.drop 1) else (0 :: acc.1, acc.2)) ([], vs)).1.reverse
      some (codes, bs.drop len)

end Sys2Proof.Machine
end

