-- ==== Sys2Proof/Machine/Carding.lean ====
section
/-! DEFINITION. What a carding unit computes: the nibble prefix code, the raw stream, the conversion and the target layout
(08_batts: R228 to R232, R241, R242). -/
namespace Sys2Proof.Machine

/-! ### Batt headers (R228) -/

/-- A batt header's fields from its 64 bytes. -/
structure BattHdr where
  magic : Nat
  level : Nat
  src : Nat
  dst : Nat
  kind : Nat
  arr : Nat
  codec : Nat
  id : Nat
  layer : Nat
  shard : Nat
  ctx : Nat
  attempt : Nat
  step : Nat
  index : Nat
  payload : Nat
  out : Nat
  crc : Nat
  hcrc : Nat
  deriving DecidableEq, Repr

/-- The header in the first 64 bytes (R228). -/
def BattHdr.ofBytes (bs : Bytes) : BattHdr :=
  let w := leAt bs 4 4
  { magic := leAt bs 0 4, level := bitsOf w 7 0, src := bitsOf w 11 8, dst := bitsOf w 15 12, kind := bitsOf w 19 16,
    arr := bitsOf w 23 20, codec := bitsOf w 27 24, id := leAt bs 8 4, layer := leAt bs 12 2, shard := leAt bs 14 2,
    ctx := leAt bs 16 1, attempt := leAt bs 17 1, step := leAt bs 20 4, index := leAt bs 24 4, payload := leAt bs 28 4,
    out := leAt bs 32 4, crc := leAt bs 40 8, hcrc := leAt bs 62 2 }

/-- Check 2: MAGIC and HCRC (R205, R228). -/
def headerOk (bs : Bytes) : Bool :=
  decide ((BattHdr.ofBytes bs).magic = 0x42415454) && decide ((BattHdr.ofBytes bs).hcrc = crc16 (slice bs 0 62))

/-! ### The nibble prefix code (R231, R232) -/

/-- The canonical codes: (symbol, length, code), symbols sorted by length and then by value. -/
def nibbleCodes (lens : List Nat) : List (Nat × Nat × Nat) :=
  let sym := (List.range 15).flatMap (fun l => (List.range 16).filterMap (fun v => if lens.getD v 0 = l + 1 then some (v, l + 1) else none))
  (sym.foldl (fun (st : List (Nat × Nat × Nat) × Nat × Nat) x =>
    let c := if st.1.isEmpty then 0 else (st.2.1 + 1) <<< (x.2 - st.2.2)
    (st.1 ++ [(x.1, x.2, c)], c, x.2)) (([], 0, 0) : List (Nat × Nat × Nat) × Nat × Nat)).1

/-- The Kraft sum of the lengths times 2^15. -/
def kraft (lens : List Nat) : Nat := (lens.map (fun l => if l = 0 then 0 else 2 ^ (15 - l))).sum

/-- Legal lengths: a Kraft sum of 1, or one symbol of length 1. -/
def lensOk (lens : List Nat) : Bool :=
  decide (kraft lens = 2 ^ 15) || decide (lens.filter (fun l => decide (l ≠ 0)) = [1])

/-- Reads `n` symbols from bits, each code most significant bit first: the symbols and the bits left. -/
def readSyms (codes : List (Nat × Nat × Nat)) : List Bool → Nat → Nat → Nat → Option (List Nat × List Bool)
  | bs, 0, _, _ => some ([], bs)
  | [], _ + 1, _, _ => none
  | b :: bs, n + 1, len, acc =>
    let acc1 := 2 * acc + b2n b
    match codes.find? (fun c => c.2.1 == len + 1 && c.2.2 == acc1) with
    | some c => (readSyms codes bs n 0 0).map (fun r => (c.1 :: r.1, r.2))
    | none => readSyms codes bs (n + 1) (len + 1) acc1

/-- Bytes from nibbles, low nibble first. -/
def joinNibbles : List Nat → Bytes
  | lo :: hi :: r => BitVec.ofNat 8 (lo + 16 * hi) :: joinNibbles r
  | _ => []

/-- The bits of bytes, bit 0 of byte 0 first. -/
def bitsOfBytes (bs : Bytes) : List Bool := bs.flatMap (fun b => (List.range 8).map (fun i => b.toNat.testBit i))

/-- One chunk: its raw bytes and what follows it; none when it is malformed. Pad bits are the zero bits, fewer than 32, after
the last nibble (DEDUCED, notes/assumptions/24.md). -/
def decodeChunk (bs : Bytes) : Option (Bytes × Bytes) :=
  let coded := leAt bs 0 2
  let raw := leAt bs 2 2
  let table := leAt bs 4 8
  let body := (bs.drop 12).take coded
  if raw = 0 ∨ raw > 4096 ∨ coded % 4 ≠ 0 ∨ body.length < coded then none
  else if table = 0 then (if coded = roundUp raw 4 then some (body.take raw, bs.drop (12 + coded)) else none)
  else
    let lens := (List.range 16).map (fun s => table / 16 ^ s % 16)
    if !lensOk lens then none
    else
      match readSyms (nibbleCodes lens) (bitsOfBytes body) (2 * raw) 0 0 with
      | some (ns, left) => if left.length < 32 ∧ left.all (fun b => !b) then some (joinNibbles ns, bs.drop (12 + coded)) else none
      | none => none

/-- The chunks of a payload. `want` is the raw stream's size where the shape gives one; a stream of another size is malformed.
Without one (the bitmap kind) the chunks end after one of fewer than 4,096 raw bytes, or with the payload. -/
def decodeChunks (want : Option Nat) : Nat → Bytes → Bytes → Option Bytes
  | 0, _, _ => none
  | k + 1, acc, bs =>
    let ended := match want with
      | some n => decide (n ≤ acc.length)
      | none => bs.length < 12 || leAt bs 2 2 == 0 || (acc.length % 4096 != 0)
    if ended then (match want with | some n => if acc.length = n then some acc else none | none => some acc)
    else
      match decodeChunk bs with
      | some (r, rest) =>
        let last := match want with
          | some n => decide (acc.length + r.length ≥ n)
          | none => true
        if r.length ≠ 4096 ∧ !last then none else decodeChunks want k (acc ++ r) rest
      | none => none

/-! ### Shapes and sizes (R229, R230) -/

/-- The shard in arrangement 0 at address 0, as its raw stream holds it. -/
def rawSlot (h : BattHdr) (rows cols : Nat) : Slot := ⟨0, h.src, h.kind, 0, 0, rows, cols, 1⟩

/-- The shard as the carding unit writes it, from address 0. -/
def cardSlot (h : BattHdr) (rows cols : Nat) : Slot := ⟨0, h.dst, h.kind, h.arr, 0, rows, cols, 1⟩

/-- OUT_BYTES that shape, DST_FMT and LAYOUT give: the tensor with its scale and metadata arrays, rounded up to 64 B (DEDUCED,
notes/assumptions/24.md). -/
def outSize (h : BattHdr) (rows cols : Nat) : Nat :=
  let t := cardSlot h rows cols
  roundUp (t.extent + t.scaleBytes + t.metaBytes) 64

/-- The raw stream's size, where the shape gives it: values, metadata words, scales (order DEDUCED, notes/assumptions/24.md). -/
def rawSize (h : BattHdr) (rows cols : Nat) : Option Nat :=
  let t := rawSlot h rows cols
  if h.kind = 5 then none else some (t.extent + t.metaBytes + t.scaleBytes)

/-- Check 7's part on sizes and formats: R229, the conversions of R241 and the layouts of R127. -/
def convertOk (h : BattHdr) (rows cols : Nat) : Bool :=
  let mx := fun (f : Nat) => decide (3 ≤ f) && decide (f ≤ 9)
  let scalar := fun (f : Nat) => decide (f ≤ 2)
  decide (h.payload % 64 = 0) && decide (64 ≤ h.payload) && decide (h.payload ≤ 2 ^ 24) &&
    decide (h.out % 64 = 0) && decide (64 ≤ h.out) && decide (h.out ≤ 2 ^ 25) && decide (h.out = outSize h rows cols) &&
    decide (h.src ≤ 9) && decide (h.dst ≤ 9) && decide (h.kind ≤ 5) && decide (h.arr ≤ 2) &&
    (h.kind == 0 || (mx h.dst && decide (h.arr ≠ 1) && h.src == h.dst)) &&
    (h.src == h.dst || (scalar h.src && (h.dst == 1 || h.dst == 2 || mx h.dst)) || (mx h.src && (mx h.dst || scalar h.dst)))

/-! ### Carding (R240 to R242) -/

/-- What carding a batt gives: its tensor bytes, its scale array and its metadata array, from the start of each, and its counts. -/
structure Carded where
  main : List (Nat × Bytes)
  scales : Bytes
  words : Bytes
  sats : Nat
  nonfin : Nat
  deriving DecidableEq, Repr

/-- The raw stream as a memory from address 0. -/
def streamByte (raw : Bytes) : Nat → Byte :=
  let m := raw.zip (List.range raw.length)
  fun a => ((m.drop a).head?.map Prod.fst).getD 0

/-- Where the records of a bitmap stream end. -/
def bitmapEnd (rd : Nat → Byte) (t : Slot) : Nat :=
  (List.range t.tiles).foldl (fun a k => max a (recAddr rd t k + 64 * bitsOf (natAt rd (recAddr rd t k) 4) 28 24)) t.tableBytes

/-- A lane-tiled copy of a dense or structured shard: values, scales and metadata words unchanged (R241, R242). -/
def laneCopy (rd : Nat → Byte) (src dst : Slot) (sa ma : Nat) : List (Nat × Bytes) :=
  let wb := nmWordBytes src.kind
  let sp := storedPerBlock src.kind
  let w := src.f.bits
  (List.range dst.panels).flatMap (fun p => (List.range dst.blocks).map (fun k =>
    let rows := (List.range 1024).map (fun i => p * 1024 + i)
    let code := fun (r j : Nat) =>
      if r < src.rows ∧ (isNm src.kind ∨ k * 32 + j < src.cols) then bitsAt rd (r * src.stride) ((k * sp + j) * w) w else 0
    let vals := (List.range sp).flatMap (fun j => rows.map (fun r => code r j))
    let scales := rows.map (fun r => if r < src.rows then rd (sa + r * src.blocks + k) else 0x7F#8)
    let words := rows.flatMap (fun r => if r < src.rows then bytesOf rd (ma + (r * src.blocks + k) * wb) wb else List.replicate wb 0#8)
    ((p * dst.blocks + k) * dst.laneRec,
      padTo 64 (packCodes w vals ++ (if src.f.isMx then scales else []) ++ (if isNm src.kind then words else [])))))

/-- Cards a raw stream: a copy keeps every bit; another pair of formats converts a dense shard, to nearest even and with
SATFINITE set; none when a bitmap record fails R102. Nonfinite blocks are counted, not their elements. -/
def card (h : BattHdr) (rows cols : Nat) (raw : Bytes) : Option Carded :=
  let rd := streamByte raw
  let src := rawSlot h rows cols
  let dst := cardSlot h rows cols
  let ma := src.extent
  let sa := src.extent + src.metaBytes
  if h.kind = 5 then
    if !recsOk rd src then none
    else
      let e := bitmapEnd rd src
      some ⟨[(0, bytesOf rd 0 e)], bytesOf rd e src.scaleBytes, [], 0, 0⟩
  else if h.src = h.dst then
    if h.arr = 2 then some ⟨laneCopy rd src dst sa ma, [], [], 0, 0⟩
    else some ⟨(List.range rows).map (fun r => (r * dst.stride, bytesOf rd (r * src.stride) src.rowBytes)),
      bytesOf rd sa src.scaleBytes, bytesOf rd ma src.metaBytes, 0, 0⟩
  else
    let t := readTen rd src sa ma
    let o := convTen ⟨true, false, 0, 0⟩ dst.f 1 rows cols 0 0 (t.data.map (fun r => r.decode true t.fmt))
    let far := 2 ^ 40
    let ws := (writeTen dst far 0 ((o.tens.head?.map Prod.snd).getD t)).getD []
    let aux := ws.filter (fun w => decide (far ≤ w.1))
    let blocks := ((o.tens.flatMap (fun t => t.2.data)).flatMap CRow.scales).filter (· == 0xFF)
    some ⟨ws.filter (fun w => decide (w.1 < far)), aux.flatMap Prod.snd, [], o.sats, blocks.length⟩

/-- A bitmap stream, whose records give its size, is as long as its table, records and scales together (R232); a stored payload
may have its pad after it. -/
def bitmapFits (h : BattHdr) (rows cols : Nat) (raw : Bytes) : Bool :=
  let t := rawSlot h rows cols
  let n := bitmapEnd (streamByte raw) t + t.scaleBytes
  decide (h.kind ≠ 5) || (if h.codec = 0 then decide (n ≤ raw.length) else decide (n = raw.length))

/-- Checks 8 and 9: the payload's CRC-64, then its decoding and its records; `error` false for a CRC failure and true for a
malformed payload. -/
def cardPayload (h : BattHdr) (rows cols : Nat) (payload : Bytes) : Except Bool Carded :=
  if payload.length ≠ h.payload ∨ crc64 payload ≠ h.crc then .error false
  else
    let raw := if h.codec = 0 then
        (match rawSize h rows cols with
         | some n => if n ≤ payload.length then some (payload.take n) else none
         | none => some payload)
      else decodeChunks (rawSize h rows cols) (payload.length + 1) [] payload
    match (raw.filter (bitmapFits h rows cols)).bind (card h rows cols) with
    | some c => .ok c
    | none => .error true

end Sys2Proof.Machine
end

