-- ==== Sys2Proof/Config.lean ====
section
/-! DEFINITION. What the spec leaves open as values: opaque constants with no body. A free value is applied to the state's
`freeCtr`, which the command reads and advances (notes/assumptions/2.md), or to the address it stands for. -/
namespace Sys2Proof.Config

/-- A byte that the spec leaves undefined (an output after SPARSE_INDEX, SPARSE_RECORD or BUDGET: R99, R102, R162). -/
opaque freeByte : Nat → Byte
/-- A word that the spec leaves undefined or does not state. -/
opaque freeWord : Nat → Word
/-- A number that the spec leaves open (counts that follow the library's schedule, R494; times it bounds only). -/
opaque freeNat : Nat → Nat
/-- The byte that weight-server space holds at a rack-independent tier 3 address, before any RDATA has brought it
(R188: the weight server owns it). The arguments are the server group and the byte address within it. -/
opaque remoteByte : Nat → Nat → Byte

/-- Spare rows of a working store bank and of a slice, and spare lanes of a DRAM channel (R401: the manual gives no number). -/
opaque wsSpareRows : Nat
opaque sliceSpareRows : Nat
opaque tsvSpareLanes : Nat
/-- The interleave positions that a slice row holds (R401). -/
opaque rowPositions : Nat → List Nat

end Sys2Proof.Config
end

