-- ==== Sys2Proof/Machine/RegTable.lean ====
section
/-! DEFINITION. The register table: every page layout of BAR0 as data, field by field, from the register tables of the
section files (the rule is named beside each page), with the access type of R9 and the value of the Reset column. A reset
value that the table does not give as a number ("Per defect map", "Set at bring-up" and the like) stands as 0 here and is
written during bring-up; "Fused maximum" and "Fused cap" stand as those of a TD3-X (notes/assumptions/3.md). -/
namespace Sys2Proof.Machine

/-- The access types of R9 that register fields use. -/
inductive Acc where
  | ro | rw | rwb | w1c | w1s | wo
  deriving DecidableEq, Repr

/-- The fault classes of an EVENT bit (R462). -/
inductive FClass where
  | none | a | b | c
  deriving DecidableEq, Repr

/-- The page layouts of R456. -/
inductive PageKind where
  | mod | lic | evt | tk | role | opq0 | opq | mem | shf | fabSpine | crdGlobal | ful | hbGlobal | nol | clk | pwrGlobal | thm | bup | fus | tel | trc | core | spx | slc | fabTile | crdTile | pwrTile | hb | drm
  | msixTable | msixPba | reserved
  deriving DecidableEq, Repr

/-- One field of a page's table. `off + stride * i` for `i < count` are its offsets; a row marked `rsv` is a writable
register that is reserved throughout. -/
structure FieldRow where
  off : Nat
  count : Nat
  stride : Nat
  msb : Nat
  lsb : Nat
  acc : Acc
  reset : Nat
  rsv : Bool
  deriving DecidableEq, Repr

/-- The MOD page, part 1 (R468, R469). -/
def rowsMod1 : List FieldRow :=
  [⟨0x010, 1, 0, 1, 0, .ro, 0, false⟩,
   ⟨0x010, 1, 0, 5, 2, .ro, 0, false⟩,
   ⟨0x010, 1, 0, 12, 6, .ro, 0, false⟩,
   ⟨0x010, 1, 0, 23, 16, .ro, 3, false⟩,
   ⟨0x014, 1, 0, 31, 0, .rw, 0, true⟩,
   ⟨0x018, 1, 0, 0, 0, .w1c, 0, false⟩,
   ⟨0x018, 1, 0, 1, 1, .w1c, 0, false⟩,
   ⟨0x018, 1, 0, 2, 2, .w1c, 0, false⟩,
   ⟨0x100, 1, 0, 5, 0, .ro, 0, false⟩,
   ⟨0x100, 1, 0, 23, 8, .ro, 0, false⟩,
   ⟨0x100, 1, 0, 27, 24, .ro, 0, false⟩,
   ⟨0x104, 1, 0, 6, 0, .ro, 0, false⟩,
   ⟨0x108, 1, 0, 7, 0, .ro, 0, false⟩,
   ⟨0x108, 1, 0, 15, 8, .ro, 0, false⟩,
   ⟨0x108, 1, 0, 23, 16, .ro, 0, false⟩,
   ⟨0x10C, 1, 0, 31, 0, .ro, 0, false⟩,
   ⟨0x110, 1, 0, 9, 0, .ro, 0, false⟩,
   ⟨0x110, 1, 0, 19, 10, .ro, 0, false⟩,
   ⟨0x110, 1, 0, 23, 20, .ro, 0, false⟩,
   ⟨0x110, 1, 0, 25, 24, .ro, 0, false⟩,
   ⟨0x114, 1, 0, 9, 0, .ro, 0, false⟩,
   ⟨0x114, 1, 0, 19, 10, .ro, 0, false⟩,
   ⟨0x114, 1, 0, 21, 20, .ro, 0, false⟩,
   ⟨0x118, 1, 0, 31, 0, .ro, 0, false⟩]

/-- The MOD page, part 2 (R468, R469). -/
def rowsMod2 : List FieldRow :=
  [⟨0x11C, 1, 0, 7, 0, .ro, 0, false⟩,
   ⟨0x01C, 1, 0, 0, 0, .rw, 0, false⟩,
   ⟨0x01C, 1, 0, 1, 1, .rw, 0, false⟩,
   ⟨0x01C, 1, 0, 2, 2, .rw, 0, false⟩]

/-- The mod page (R468, R469). -/
def rowsMod : List FieldRow := rowsMod1 ++ rowsMod2

/-- The LIC page (R472, R473). -/
def rowsLic : List FieldRow :=
  [⟨0x010, 1, 0, 3, 0, .ro, 0, false⟩,
   ⟨0x010, 1, 0, 5, 4, .ro, 0, false⟩,
   ⟨0x014, 1, 0, 31, 0, .rw, 0, true⟩,
   ⟨0x018, 1, 0, 0, 0, .w1c, 0, false⟩,
   ⟨0x018, 1, 0, 1, 1, .w1c, 0, false⟩,
   ⟨0x018, 1, 0, 2, 2, .w1c, 0, false⟩,
   ⟨0x018, 1, 0, 3, 3, .w1c, 0, false⟩,
   ⟨0x100, 4, 8, 1, 0, .ro, 1, false⟩,
   ⟨0x120, 2, 8, 1, 0, .ro, 2, false⟩,
   ⟨0x130, 2, 8, 1, 0, .ro, 3, false⟩,
   ⟨0x100, 8, 8, 2, 2, .ro, 0, false⟩,
   ⟨0x100, 8, 8, 3, 3, .ro, 0, false⟩,
   ⟨0x100, 8, 8, 31, 16, .ro, 0, false⟩,
   ⟨0x104, 8, 8, 0, 0, .w1s, 0, false⟩,
   ⟨0x140, 1, 0, 0, 0, .rw, 0, false⟩,
   ⟨0x144, 1, 0, 31, 0, .wo, 0, false⟩,
   ⟨0x148, 1, 0, 0, 0, .wo, 0, false⟩,
   ⟨0x148, 1, 0, 1, 1, .wo, 0, false⟩,
   ⟨0x14C, 1, 0, 3, 0, .ro, 0, false⟩,
   ⟨0x14C, 1, 0, 11, 8, .ro, 0, false⟩,
   ⟨0x150, 1, 0, 31, 0, .ro, 0, false⟩,
   ⟨0x154, 1, 0, 3, 0, .ro, 0, false⟩,
   ⟨0x01C, 1, 0, 0, 0, .rw, 0, false⟩,
   ⟨0x01C, 1, 0, 1, 1, .rw, 0, false⟩,
   ⟨0x01C, 1, 0, 2, 2, .rw, 0, false⟩,
   ⟨0x01C, 1, 0, 3, 3, .rw, 0, false⟩]

/-- The EVT page (R476, R477). -/
def rowsEvt : List FieldRow :=
  [⟨0x010, 1, 0, 0, 0, .ro, 0, false⟩,
   ⟨0x010, 1, 0, 1, 1, .ro, 0, false⟩,
   ⟨0x014, 1, 0, 0, 0, .rw, 0, false⟩,
   ⟨0x018, 1, 0, 31, 0, .w1c, 0, true⟩,
   ⟨0x100, 32, 4, 31, 0, .ro, 0, false⟩,
   ⟨0x180, 32, 4, 31, 0, .ro, 0, false⟩,
   ⟨0x200, 1, 0, 9, 0, .ro, 0, false⟩,
   ⟨0x200, 1, 0, 31, 31, .ro, 0, false⟩,
   ⟨0x204, 1, 0, 9, 0, .ro, 0, false⟩,
   ⟨0x204, 1, 0, 31, 31, .ro, 0, false⟩,
   ⟨0x208, 1, 0, 15, 0, .rw, 4, false⟩,
   ⟨0x01C, 1, 0, 31, 0, .rw, 0, true⟩]

/-- The TK page (R345, R346). -/
def rowsTk : List FieldRow :=
  [⟨0x010, 1, 0, 0, 0, .ro, 0, false⟩,
   ⟨0x010, 1, 0, 1, 1, .ro, 0, false⟩,
   ⟨0x010, 1, 0, 2, 2, .ro, 0, false⟩,
   ⟨0x014, 1, 0, 31, 0, .rw, 0, true⟩,
   ⟨0x018, 1, 0, 0, 0, .w1c, 0, false⟩,
   ⟨0x018, 1, 0, 1, 1, .w1c, 0, false⟩,
   ⟨0x018, 1, 0, 2, 2, .w1c, 0, false⟩,
   ⟨0x100, 1, 0, 17, 0, .rwb, 20480, false⟩,
   ⟨0x104, 1, 0, 15, 0, .rw, 1024, false⟩,
   ⟨0x104, 1, 0, 23, 16, .rw, 64, false⟩,
   ⟨0x108, 1, 0, 31, 0, .ro, 0, false⟩,
   ⟨0x10C, 1, 0, 31, 0, .ro, 0, false⟩,
   ⟨0x110, 1, 0, 31, 0, .ro, 0, false⟩,
   ⟨0x114, 1, 0, 31, 0, .ro, 0, false⟩,
   ⟨0x118, 1, 0, 31, 0, .ro, 0, false⟩,
   ⟨0x11C, 1, 0, 31, 0, .ro, 0, false⟩,
   ⟨0x120, 1, 0, 31, 0, .ro, 0, false⟩,
   ⟨0x124, 1, 0, 31, 0, .ro, 0, false⟩,
   ⟨0x128, 1, 0, 31, 0, .ro, 0, false⟩,
   ⟨0x01C, 1, 0, 0, 0, .rw, 0, false⟩,
   ⟨0x01C, 1, 0, 1, 1, .rw, 0, false⟩,
   ⟨0x01C, 1, 0, 2, 2, .rw, 0, false⟩]

/-- The ROLE page, part 1 (R348, R349). -/
def rowsRole1 : List FieldRow :=
  [⟨0x010, 1, 0, 1, 0, .ro, 0, false⟩,
   ⟨0x010, 1, 0, 2, 2, .ro, 0, false⟩,
   ⟨0x010, 1, 0, 3, 3, .ro, 0, false⟩,
   ⟨0x014, 1, 0, 31, 0, .rw, 0, true⟩,
   ⟨0x018, 1, 0, 0, 0, .w1c, 0, false⟩,
   ⟨0x018, 1, 0, 1, 1, .w1c, 0, false⟩,
   ⟨0x018, 1, 0, 2, 2, .w1c, 0, false⟩,
   ⟨0x018, 1, 0, 3, 3, .w1c, 0, false⟩,
   ⟨0x100, 1, 0, 7, 0, .rwb, 0, false⟩,
   ⟨0x100, 1, 0, 16, 8, .rwb, 1, false⟩,
   ⟨0x104, 1, 0, 15, 0, .rwb, 0, false⟩,
   ⟨0x104, 1, 0, 31, 16, .rwb, 0, false⟩,
   ⟨0x108, 1, 0, 11, 0, .rwb, 4095, false⟩,
   ⟨0x108, 1, 0, 27, 16, .ro, 4095, false⟩,
   ⟨0x10C, 1, 0, 11, 0, .rwb, 0, false⟩,
   ⟨0x10C, 1, 0, 23, 16, .rwb, 4, false⟩,
   ⟨0x110, 1, 0, 0, 0, .rw, 1, false⟩,
   ⟨0x110, 1, 0, 1, 1, .rw, 1, false⟩,
   ⟨0x114, 1, 0, 0, 0, .wo, 0, false⟩,
   ⟨0x114, 1, 0, 27, 16, .wo, 0, false⟩,
   ⟨0x118, 1, 0, 2, 0, .ro, 0, false⟩,
   ⟨0x118, 1, 0, 15, 8, .ro, 0, false⟩,
   ⟨0x11C, 1, 0, 31, 0, .ro, 0, false⟩,
   ⟨0x120, 1, 0, 7, 0, .ro, 0, false⟩]

/-- The ROLE page, part 2 (R348, R349). -/
def rowsRole2 : List FieldRow :=
  [⟨0x120, 1, 0, 10, 8, .ro, 0, false⟩,
   ⟨0x01C, 1, 0, 0, 0, .rw, 0, false⟩,
   ⟨0x01C, 1, 0, 1, 1, .rw, 0, false⟩,
   ⟨0x01C, 1, 0, 2, 2, .rw, 0, false⟩,
   ⟨0x01C, 1, 0, 3, 3, .rw, 0, false⟩]

/-- The role page (R348, R349). -/
def rowsRole : List FieldRow := rowsRole1 ++ rowsRole2

/-- The OPQ0 page (R167, R168). -/
def rowsOpq0 : List FieldRow :=
  [⟨0x010, 1, 0, 4, 0, .ro, 0, false⟩,
   ⟨0x018, 1, 0, 0, 0, .w1c, 0, false⟩,
   ⟨0x018, 1, 0, 1, 1, .w1c, 0, false⟩,
   ⟨0x018, 1, 0, 2, 2, .w1c, 0, false⟩,
   ⟨0x018, 1, 0, 3, 3, .w1c, 0, false⟩,
   ⟨0x018, 1, 0, 4, 4, .w1c, 0, false⟩,
   ⟨0x018, 1, 0, 5, 5, .w1c, 0, false⟩,
   ⟨0x018, 1, 0, 6, 6, .w1c, 0, false⟩,
   ⟨0x100, 256, 4, 15, 0, .wo, 0, false⟩,
   ⟨0x500, 16, 16, 31, 0, .rwb, 0, false⟩,
   ⟨0x504, 16, 16, 31, 0, .rwb, 0, false⟩,
   ⟨0x508, 16, 16, 31, 0, .rwb, 0, false⟩,
   ⟨0x50C, 16, 16, 7, 0, .rwb, 8, false⟩,
   ⟨0x50C, 16, 16, 23, 16, .ro, 0, false⟩,
   ⟨0x50C, 16, 16, 24, 24, .ro, 0, false⟩,
   ⟨0x50C, 16, 16, 25, 25, .ro, 0, false⟩,
   ⟨0x014, 1, 0, 31, 0, .rw, 0, true⟩,
   ⟨0x01C, 1, 0, 0, 0, .rw, 0, false⟩,
   ⟨0x01C, 1, 0, 1, 1, .rw, 0, false⟩,
   ⟨0x01C, 1, 0, 2, 2, .rw, 0, false⟩,
   ⟨0x01C, 1, 0, 3, 3, .rw, 0, false⟩,
   ⟨0x01C, 1, 0, 4, 4, .rw, 0, false⟩,
   ⟨0x01C, 1, 0, 5, 5, .rw, 0, false⟩,
   ⟨0x01C, 1, 0, 6, 6, .rw, 0, false⟩]

/-- The OPQ page, part 1 (R169, R170). -/
def rowsOpq1 : List FieldRow :=
  [⟨0x100, 16, 64, 3, 0, .rw, 0, false⟩,
   ⟨0x100, 16, 64, 15, 8, .rw, 3, false⟩,
   ⟨0x100, 16, 64, 23, 16, .rw, 16, false⟩,
   ⟨0x100, 16, 64, 4, 4, .rw, 0, false⟩,
   ⟨0x104, 16, 64, 2, 0, .ro, 0, false⟩,
   ⟨0x104, 16, 64, 3, 3, .ro, 0, false⟩,
   ⟨0x104, 16, 64, 13, 8, .ro, 0, false⟩,
   ⟨0x108, 16, 64, 30, 0, .rw, 0, false⟩,
   ⟨0x10C, 16, 64, 30, 0, .rw, 0, false⟩,
   ⟨0x110, 16, 64, 4, 0, .rw, 5, false⟩,
   ⟨0x110, 16, 64, 31, 12, .rw, 0, false⟩,
   ⟨0x114, 16, 64, 19, 0, .rw, 0, false⟩,
   ⟨0x118, 16, 64, 15, 0, .ro, 0, false⟩,
   ⟨0x118, 16, 64, 31, 16, .ro, 0, false⟩,
   ⟨0x11C, 16, 64, 4, 0, .rw, 5, false⟩,
   ⟨0x11C, 16, 64, 31, 12, .rw, 0, false⟩,
   ⟨0x120, 16, 64, 19, 0, .rw, 0, false⟩,
   ⟨0x124, 16, 64, 15, 0, .ro, 0, false⟩,
   ⟨0x124, 16, 64, 31, 16, .rw, 0, false⟩,
   ⟨0x128, 16, 64, 3, 0, .rw, 0, false⟩,
   ⟨0x128, 16, 64, 31, 12, .rw, 0, false⟩,
   ⟨0x12C, 16, 64, 19, 0, .rw, 0, false⟩,
   ⟨0x130, 16, 64, 7, 0, .rw, 0, false⟩,
   ⟨0x130, 16, 64, 15, 8, .rw, 0, false⟩]

/-- The OPQ page, part 2 (R169, R170). -/
def rowsOpq2 : List FieldRow :=
  [⟨0x134, 16, 64, 0, 0, .wo, 0, false⟩,
   ⟨0x134, 16, 64, 1, 1, .wo, 0, false⟩,
   ⟨0x134, 16, 64, 2, 2, .wo, 0, false⟩,
   ⟨0x138, 16, 64, 15, 0, .ro, 0, false⟩,
   ⟨0x010, 1, 0, 15, 0, .ro, 0, false⟩,
   ⟨0x010, 1, 0, 31, 16, .ro, 0, false⟩,
   ⟨0x018, 1, 0, 15, 0, .w1c, 0, false⟩,
   ⟨0x014, 1, 0, 31, 0, .rw, 0, true⟩,
   ⟨0x01C, 1, 0, 15, 0, .rw, 0, false⟩]

/-- The opq page (R169, R170). -/
def rowsOpq : List FieldRow := rowsOpq1 ++ rowsOpq2

/-- The MEM page, part 1 (R196, R197). -/
def rowsMem1 : List FieldRow :=
  [⟨0x010, 1, 0, 0, 0, .ro, 0, false⟩,
   ⟨0x010, 1, 0, 5, 1, .ro, 0, false⟩,
   ⟨0x010, 1, 0, 14, 6, .ro, 0, false⟩,
   ⟨0x014, 1, 0, 31, 0, .rw, 0, true⟩,
   ⟨0x018, 1, 0, 0, 0, .w1c, 0, false⟩,
   ⟨0x018, 1, 0, 1, 1, .w1c, 0, false⟩,
   ⟨0x018, 1, 0, 2, 2, .w1c, 0, false⟩,
   ⟨0x018, 1, 0, 3, 3, .w1c, 0, false⟩,
   ⟨0x018, 1, 0, 4, 4, .w1c, 0, false⟩,
   ⟨0x100, 4, 4, 31, 0, .rw, 0, false⟩,
   ⟨0x110, 1, 0, 3, 0, .wo, 0, false⟩,
   ⟨0x114, 1, 0, 3, 0, .ro, 0, false⟩,
   ⟨0x114, 1, 0, 31, 16, .ro, 0, false⟩,
   ⟨0x118, 1, 0, 31, 0, .ro, 0, false⟩,
   ⟨0x120, 1, 0, 11, 0, .rwb, 4095, false⟩,
   ⟨0x124, 1, 0, 11, 0, .ro, 0, false⟩,
   ⟨0x128, 1, 0, 14, 0, .ro, 18176, false⟩,
   ⟨0x12C, 1, 0, 20, 0, .ro, 0, false⟩,
   ⟨0x130, 1, 0, 7, 0, .rwb, 16, false⟩,
   ⟨0x130, 1, 0, 15, 8, .rwb, 16, false⟩,
   ⟨0x130, 1, 0, 23, 16, .rwb, 16, false⟩,
   ⟨0x140, 1, 0, 22, 0, .rw, 0, false⟩,
   ⟨0x144, 4, 4, 31, 0, .ro, 0, false⟩,
   ⟨0x160, 1, 0, 7, 0, .ro, 0, false⟩]

/-- The MEM page, part 2 (R196, R197). -/
def rowsMem2 : List FieldRow :=
  [⟨0x164, 1, 0, 22, 0, .ro, 0, false⟩,
   ⟨0x168, 1, 0, 22, 0, .ro, 0, false⟩,
   ⟨0x16C, 1, 0, 31, 0, .ro, 0, false⟩,
   ⟨0x170, 1, 0, 31, 0, .ro, 0, false⟩,
   ⟨0x178, 1, 0, 2, 0, .ro, 0, false⟩,
   ⟨0x178, 1, 0, 11, 8, .ro, 0, false⟩,
   ⟨0x01C, 1, 0, 0, 0, .rw, 0, false⟩,
   ⟨0x01C, 1, 0, 1, 1, .rw, 0, false⟩,
   ⟨0x01C, 1, 0, 2, 2, .rw, 0, false⟩,
   ⟨0x01C, 1, 0, 3, 3, .rw, 0, false⟩,
   ⟨0x01C, 1, 0, 4, 4, .rw, 0, false⟩]

/-- The mem page (R196, R197). -/
def rowsMem : List FieldRow := rowsMem1 ++ rowsMem2

/-- The SHF page (R201). -/
def rowsShf : List FieldRow :=
  [⟨0x010, 1, 0, 0, 0, .ro, 0, false⟩,
   ⟨0x010, 1, 0, 1, 1, .ro, 0, false⟩,
   ⟨0x014, 1, 0, 31, 0, .rw, 0, true⟩,
   ⟨0x018, 1, 0, 0, 0, .w1c, 0, false⟩,
   ⟨0x018, 1, 0, 1, 1, .w1c, 0, false⟩,
   ⟨0x018, 1, 0, 2, 2, .w1c, 0, false⟩,
   ⟨0x018, 1, 0, 3, 3, .w1c, 0, false⟩,
   ⟨0x018, 1, 0, 4, 4, .w1c, 0, false⟩,
   ⟨0x100, 1, 0, 15, 0, .ro, 0, false⟩,
   ⟨0x104, 1, 0, 23, 0, .ro, 0, false⟩,
   ⟨0x108, 1, 0, 7, 0, .ro, 0, false⟩,
   ⟨0x01C, 1, 0, 0, 0, .rw, 0, false⟩,
   ⟨0x01C, 1, 0, 1, 1, .rw, 0, false⟩,
   ⟨0x01C, 1, 0, 2, 2, .rw, 0, false⟩,
   ⟨0x01C, 1, 0, 3, 3, .rw, 0, false⟩,
   ⟨0x01C, 1, 0, 4, 4, .rw, 0, false⟩]

/-- The fabSpine page (R224, R225). -/
def rowsFabSpine : List FieldRow :=
  [⟨0x010, 1, 0, 0, 0, .ro, 0, false⟩,
   ⟨0x010, 1, 0, 1, 1, .ro, 0, false⟩,
   ⟨0x010, 1, 0, 2, 2, .ro, 0, false⟩,
   ⟨0x014, 1, 0, 31, 0, .rw, 0, true⟩,
   ⟨0x018, 1, 0, 0, 0, .w1c, 0, false⟩,
   ⟨0x018, 1, 0, 1, 1, .w1c, 0, false⟩,
   ⟨0x018, 1, 0, 2, 2, .w1c, 0, false⟩,
   ⟨0x018, 1, 0, 3, 3, .w1c, 0, false⟩,
   ⟨0x100, 1, 0, 4, 0, .rwb, 8, false⟩,
   ⟨0x100, 1, 0, 12, 8, .rwb, 3, false⟩,
   ⟨0x100, 1, 0, 20, 16, .rwb, 5, false⟩,
   ⟨0x104, 1, 0, 31, 0, .ro, 612467224, false⟩,
   ⟨0x108, 1, 0, 15, 0, .ro, 250, false⟩,
   ⟨0x10C, 1, 0, 9, 0, .rwb, 64, false⟩,
   ⟨0x10C, 1, 0, 31, 16, .rwb, 2048, false⟩,
   ⟨0x110, 1, 0, 4, 0, .ro, 0, false⟩,
   ⟨0x110, 1, 0, 12, 8, .ro, 0, false⟩,
   ⟨0x01C, 1, 0, 0, 0, .rw, 0, false⟩,
   ⟨0x01C, 1, 0, 1, 1, .rw, 0, false⟩,
   ⟨0x01C, 1, 0, 2, 2, .rw, 0, false⟩,
   ⟨0x01C, 1, 0, 3, 3, .rw, 0, false⟩]

/-- The crdGlobal page, part 1 (R252, R253). -/
def rowsCrdGlobal1 : List FieldRow :=
  [⟨0x010, 1, 0, 15, 0, .ro, 0, false⟩,
   ⟨0x010, 1, 0, 31, 16, .ro, 0, false⟩,
   ⟨0x014, 1, 0, 31, 0, .rw, 0, true⟩,
   ⟨0x018, 1, 0, 0, 0, .w1c, 0, false⟩,
   ⟨0x018, 1, 0, 1, 1, .w1c, 0, false⟩,
   ⟨0x018, 1, 0, 2, 2, .w1c, 0, false⟩,
   ⟨0x018, 1, 0, 3, 3, .w1c, 0, false⟩,
   ⟨0x018, 1, 0, 4, 4, .w1c, 0, false⟩,
   ⟨0x100, 16, 16, 31, 6, .rw, 0, false⟩,
   ⟨0x104, 16, 16, 19, 0, .rw, 0, false⟩,
   ⟨0x108, 16, 16, 0, 0, .wo, 0, false⟩,
   ⟨0x108, 16, 16, 1, 1, .wo, 0, false⟩,
   ⟨0x108, 16, 16, 2, 2, .wo, 0, false⟩,
   ⟨0x108, 16, 16, 3, 3, .wo, 0, false⟩,
   ⟨0x10C, 16, 16, 15, 0, .ro, 0, false⟩,
   ⟨0x10C, 16, 16, 16, 16, .ro, 0, false⟩,
   ⟨0x10C, 16, 16, 17, 17, .ro, 0, false⟩,
   ⟨0x200, 1, 0, 7, 0, .rw, 8, false⟩,
   ⟨0x200, 1, 0, 15, 8, .rw, 2, false⟩,
   ⟨0x200, 1, 0, 23, 16, .rw, 4, false⟩,
   ⟨0x208, 1, 0, 31, 0, .ro, 0, false⟩,
   ⟨0x20C, 1, 0, 15, 0, .ro, 0, false⟩,
   ⟨0x20C, 1, 0, 19, 16, .ro, 0, false⟩,
   ⟨0x20C, 1, 0, 22, 20, .ro, 0, false⟩]

/-- The crdGlobal page, part 2 (R252, R253). -/
def rowsCrdGlobal2 : List FieldRow :=
  [⟨0x01C, 1, 0, 0, 0, .rw, 0, false⟩,
   ⟨0x01C, 1, 0, 1, 1, .rw, 0, false⟩,
   ⟨0x01C, 1, 0, 2, 2, .rw, 0, false⟩,
   ⟨0x01C, 1, 0, 3, 3, .rw, 0, false⟩,
   ⟨0x01C, 1, 0, 4, 4, .rw, 0, false⟩]

/-- The crdGlobal page (R252, R253). -/
def rowsCrdGlobal : List FieldRow := rowsCrdGlobal1 ++ rowsCrdGlobal2

/-- The FUL page, part 1 (R278, R279). -/
def rowsFul1 : List FieldRow :=
  [⟨0x010, 1, 0, 15, 0, .ro, 0, false⟩,
   ⟨0x010, 1, 0, 16, 16, .ro, 0, false⟩,
   ⟨0x010, 1, 0, 17, 17, .ro, 0, false⟩,
   ⟨0x014, 1, 0, 31, 0, .rw, 0, true⟩,
   ⟨0x018, 1, 0, 0, 0, .w1c, 0, false⟩,
   ⟨0x018, 1, 0, 1, 1, .w1c, 0, false⟩,
   ⟨0x018, 1, 0, 2, 2, .w1c, 0, false⟩,
   ⟨0x018, 1, 0, 3, 3, .w1c, 0, false⟩,
   ⟨0x018, 1, 0, 4, 4, .w1c, 0, false⟩,
   ⟨0x100, 16, 64, 0, 0, .rw, 0, false⟩,
   ⟨0x100, 16, 64, 1, 1, .rw, 0, false⟩,
   ⟨0x100, 16, 64, 2, 2, .rw, 0, false⟩,
   ⟨0x100, 16, 64, 3, 3, .rw, 1, false⟩,
   ⟨0x100, 16, 64, 7, 4, .rw, 0, false⟩,
   ⟨0x100, 16, 64, 15, 8, .rw, 4, false⟩,
   ⟨0x100, 16, 64, 16, 16, .rw, 1, false⟩,
   ⟨0x104, 16, 64, 11, 0, .rw, 0, false⟩,
   ⟨0x104, 16, 64, 19, 16, .rw, 0, false⟩,
   ⟨0x108, 16, 64, 14, 0, .rw, 1024, false⟩,
   ⟨0x10C, 16, 64, 0, 0, .ro, 0, false⟩,
   ⟨0x10C, 16, 64, 15, 8, .ro, 0, false⟩,
   ⟨0x110, 16, 64, 11, 0, .rw, 0, false⟩,
   ⟨0x114, 16, 64, 11, 0, .rw, 0, false⟩,
   ⟨0x118, 16, 64, 11, 0, .rw, 0, false⟩]

/-- The FUL page, part 2 (R278, R279). -/
def rowsFul2 : List FieldRow :=
  [⟨0x11C, 16, 64, 11, 0, .rw, 0, false⟩,
   ⟨0x120, 16, 64, 11, 0, .rw, 0, false⟩,
   ⟨0x124, 16, 64, 11, 0, .rw, 0, false⟩,
   ⟨0x128, 16, 64, 11, 0, .rw, 0, false⟩,
   ⟨0x12C, 16, 64, 11, 0, .rw, 0, false⟩,
   ⟨0x110, 16, 64, 15, 12, .rw, 0, false⟩,
   ⟨0x114, 16, 64, 15, 12, .rw, 0, false⟩,
   ⟨0x118, 16, 64, 15, 12, .rw, 0, false⟩,
   ⟨0x11C, 16, 64, 15, 12, .rw, 0, false⟩,
   ⟨0x120, 16, 64, 15, 12, .rw, 0, false⟩,
   ⟨0x124, 16, 64, 15, 12, .rw, 0, false⟩,
   ⟨0x128, 16, 64, 15, 12, .rw, 0, false⟩,
   ⟨0x12C, 16, 64, 15, 12, .rw, 0, false⟩,
   ⟨0x110, 16, 64, 27, 16, .rw, 0, false⟩,
   ⟨0x114, 16, 64, 27, 16, .rw, 0, false⟩,
   ⟨0x118, 16, 64, 27, 16, .rw, 0, false⟩,
   ⟨0x11C, 16, 64, 27, 16, .rw, 0, false⟩,
   ⟨0x120, 16, 64, 27, 16, .rw, 0, false⟩,
   ⟨0x124, 16, 64, 27, 16, .rw, 0, false⟩,
   ⟨0x128, 16, 64, 27, 16, .rw, 0, false⟩,
   ⟨0x12C, 16, 64, 27, 16, .rw, 0, false⟩,
   ⟨0x110, 16, 64, 31, 28, .rw, 0, false⟩,
   ⟨0x114, 16, 64, 31, 28, .rw, 0, false⟩,
   ⟨0x118, 16, 64, 31, 28, .rw, 0, false⟩]

/-- The FUL page, part 3 (R278, R279). -/
def rowsFul3 : List FieldRow :=
  [⟨0x11C, 16, 64, 31, 28, .rw, 0, false⟩,
   ⟨0x120, 16, 64, 31, 28, .rw, 0, false⟩,
   ⟨0x124, 16, 64, 31, 28, .rw, 0, false⟩,
   ⟨0x128, 16, 64, 31, 28, .rw, 0, false⟩,
   ⟨0x12C, 16, 64, 31, 28, .rw, 0, false⟩,
   ⟨0x130, 16, 64, 31, 0, .ro, 0, false⟩,
   ⟨0x134, 16, 64, 31, 0, .ro, 0, false⟩,
   ⟨0x138, 16, 64, 15, 0, .ro, 0, false⟩,
   ⟨0x01C, 1, 0, 0, 0, .rw, 0, false⟩,
   ⟨0x01C, 1, 0, 1, 1, .rw, 0, false⟩,
   ⟨0x01C, 1, 0, 2, 2, .rw, 0, false⟩,
   ⟨0x01C, 1, 0, 3, 3, .rw, 0, false⟩,
   ⟨0x01C, 1, 0, 4, 4, .rw, 0, false⟩]

/-- The ful page (R278, R279). -/
def rowsFul : List FieldRow := rowsFul1 ++ rowsFul2 ++ rowsFul3

/-- The hbGlobal page (R314, R315). -/
def rowsHbGlobal : List FieldRow :=
  [⟨0x010, 1, 0, 3, 0, .ro, 0, false⟩,
   ⟨0x010, 1, 0, 15, 4, .ro, 0, false⟩,
   ⟨0x014, 1, 0, 31, 0, .rw, 0, true⟩,
   ⟨0x018, 1, 0, 0, 0, .w1c, 0, false⟩,
   ⟨0x100, 12, 4, 1, 0, .rwb, 0, false⟩,
   ⟨0x100, 12, 4, 7, 4, .rwb, 0, false⟩,
   ⟨0x100, 12, 4, 19, 8, .rwb, 0, false⟩,
   ⟨0x100, 12, 4, 23, 20, .rwb, 0, false⟩,
   ⟨0x140, 1, 0, 31, 0, .ro, 0, false⟩,
   ⟨0x144, 1, 0, 15, 0, .ro, 0, false⟩,
   ⟨0x01C, 1, 0, 0, 0, .rw, 0, false⟩]

/-- The NOL page (R319, R320). -/
def rowsNol : List FieldRow :=
  [⟨0x010, 1, 0, 2, 0, .ro, 0, false⟩,
   ⟨0x010, 1, 0, 15, 8, .ro, 0, false⟩,
   ⟨0x010, 1, 0, 18, 16, .ro, 0, false⟩,
   ⟨0x014, 1, 0, 0, 0, .wo, 0, false⟩,
   ⟨0x018, 1, 0, 0, 0, .w1c, 0, false⟩,
   ⟨0x018, 1, 0, 1, 1, .w1c, 0, false⟩,
   ⟨0x018, 1, 0, 2, 2, .w1c, 0, false⟩,
   ⟨0x018, 1, 0, 3, 3, .w1c, 0, false⟩,
   ⟨0x100, 1, 0, 31, 0, .ro, 0, false⟩,
   ⟨0x104, 1, 0, 7, 0, .ro, 0, false⟩,
   ⟨0x104, 1, 0, 15, 8, .ro, 0, false⟩,
   ⟨0x108, 1, 0, 31, 0, .ro, 0, false⟩,
   ⟨0x10C, 1, 0, 31, 0, .ro, 0, false⟩,
   ⟨0x110, 1, 0, 11, 0, .ro, 0, false⟩,
   ⟨0x110, 1, 0, 15, 12, .ro, 0, false⟩,
   ⟨0x110, 1, 0, 17, 16, .ro, 0, false⟩,
   ⟨0x114, 1, 0, 7, 0, .ro, 0, false⟩,
   ⟨0x01C, 1, 0, 0, 0, .rw, 0, false⟩,
   ⟨0x01C, 1, 0, 1, 1, .rw, 0, false⟩,
   ⟨0x01C, 1, 0, 2, 2, .rw, 0, false⟩,
   ⟨0x01C, 1, 0, 3, 3, .rw, 0, false⟩]

/-- The CLK page (R363, R364). -/
def rowsClk : List FieldRow :=
  [⟨0x010, 1, 0, 0, 0, .ro, 0, false⟩,
   ⟨0x010, 1, 0, 1, 1, .ro, 0, false⟩,
   ⟨0x014, 1, 0, 31, 0, .rw, 0, true⟩,
   ⟨0x018, 1, 0, 0, 0, .w1c, 0, false⟩,
   ⟨0x018, 1, 0, 1, 1, .w1c, 0, false⟩,
   ⟨0x018, 1, 0, 2, 2, .w1c, 0, false⟩,
   ⟨0x018, 1, 0, 3, 3, .w1c, 0, false⟩,
   ⟨0x018, 1, 0, 4, 4, .w1c, 0, false⟩,
   ⟨0x100, 1, 0, 5, 0, .rwb, 25, false⟩,
   ⟨0x104, 1, 0, 5, 0, .ro, 25, false⟩,
   ⟨0x104, 1, 0, 13, 8, .ro, 25, false⟩,
   ⟨0x108, 1, 0, 7, 0, .ro, 0, false⟩,
   ⟨0x10C, 1, 0, 16, 0, .ro, 0, false⟩,
   ⟨0x110, 1, 0, 31, 0, .ro, 0, false⟩,
   ⟨0x114, 1, 0, 15, 0, .ro, 0, false⟩,
   ⟨0x118, 1, 0, 2, 0, .ro, 0, false⟩,
   ⟨0x118, 1, 0, 15, 8, .ro, 0, false⟩,
   ⟨0x118, 1, 0, 17, 16, .ro, 0, false⟩,
   ⟨0x01C, 1, 0, 0, 0, .rw, 0, false⟩,
   ⟨0x01C, 1, 0, 1, 1, .rw, 0, false⟩,
   ⟨0x01C, 1, 0, 2, 2, .rw, 0, false⟩,
   ⟨0x01C, 1, 0, 3, 3, .rw, 0, false⟩,
   ⟨0x01C, 1, 0, 4, 4, .rw, 0, false⟩]

/-- The pwrGlobal page, part 1 (R386, R387). -/
def rowsPwrGlobal1 : List FieldRow :=
  [⟨0x010, 1, 0, 0, 0, .ro, 0, false⟩,
   ⟨0x010, 1, 0, 1, 1, .ro, 0, false⟩,
   ⟨0x010, 1, 0, 2, 2, .ro, 0, false⟩,
   ⟨0x010, 1, 0, 3, 3, .ro, 0, false⟩,
   ⟨0x010, 1, 0, 4, 4, .ro, 0, false⟩,
   ⟨0x010, 1, 0, 5, 5, .ro, 0, false⟩,
   ⟨0x010, 1, 0, 6, 6, .ro, 0, false⟩,
   ⟨0x010, 1, 0, 7, 7, .ro, 0, false⟩,
   ⟨0x010, 1, 0, 9, 8, .ro, 0, false⟩,
   ⟨0x014, 1, 0, 31, 0, .rw, 0, true⟩,
   ⟨0x018, 1, 0, 0, 0, .w1c, 0, false⟩,
   ⟨0x018, 1, 0, 1, 1, .w1c, 0, false⟩,
   ⟨0x018, 1, 0, 2, 2, .w1c, 0, false⟩,
   ⟨0x018, 1, 0, 3, 3, .w1c, 0, false⟩,
   ⟨0x018, 1, 0, 4, 4, .w1c, 0, false⟩,
   ⟨0x018, 1, 0, 5, 5, .w1c, 0, false⟩,
   ⟨0x100, 1, 0, 15, 0, .rw, 0, false⟩,
   ⟨0x104, 1, 0, 15, 0, .ro, 0, false⟩,
   ⟨0x108, 1, 0, 15, 0, .ro, 0, false⟩,
   ⟨0x10C, 1, 0, 15, 0, .ro, 2700, false⟩,
   ⟨0x10C, 1, 0, 18, 16, .ro, 0, false⟩,
   ⟨0x110, 1, 0, 4, 0, .ro, 16, false⟩,
   ⟨0x114, 1, 0, 15, 0, .ro, 0, false⟩,
   ⟨0x114, 1, 0, 31, 16, .ro, 0, false⟩]

/-- The pwrGlobal page, part 2 (R386, R387). -/
def rowsPwrGlobal2 : List FieldRow :=
  [⟨0x118, 1, 0, 3, 0, .rwb, 4, false⟩,
   ⟨0x118, 1, 0, 15, 8, .rwb, 15, false⟩,
   ⟨0x11C, 1, 0, 9, 0, .ro, 0, false⟩,
   ⟨0x11C, 1, 0, 25, 16, .ro, 0, false⟩,
   ⟨0x120, 1, 0, 12, 0, .ro, 0, false⟩,
   ⟨0x120, 1, 0, 27, 16, .ro, 0, false⟩,
   ⟨0x01C, 1, 0, 0, 0, .rw, 0, false⟩,
   ⟨0x01C, 1, 0, 1, 1, .rw, 0, false⟩,
   ⟨0x01C, 1, 0, 2, 2, .rw, 0, false⟩,
   ⟨0x01C, 1, 0, 3, 3, .rw, 0, false⟩,
   ⟨0x01C, 1, 0, 4, 4, .rw, 0, false⟩,
   ⟨0x01C, 1, 0, 5, 5, .rw, 0, false⟩]

/-- The pwrGlobal page (R386, R387). -/
def rowsPwrGlobal : List FieldRow := rowsPwrGlobal1 ++ rowsPwrGlobal2

/-- The THM page, part 1 (R390). -/
def rowsThm1 : List FieldRow :=
  [⟨0x010, 1, 0, 0, 0, .ro, 0, false⟩,
   ⟨0x010, 1, 0, 1, 1, .ro, 0, false⟩,
   ⟨0x010, 1, 0, 2, 2, .ro, 0, false⟩,
   ⟨0x010, 1, 0, 3, 3, .ro, 0, false⟩,
   ⟨0x014, 1, 0, 31, 0, .rw, 0, true⟩,
   ⟨0x018, 1, 0, 0, 0, .w1c, 0, false⟩,
   ⟨0x018, 1, 0, 1, 1, .w1c, 0, false⟩,
   ⟨0x018, 1, 0, 2, 2, .w1c, 0, false⟩,
   ⟨0x018, 1, 0, 3, 3, .w1c, 0, false⟩,
   ⟨0x018, 1, 0, 4, 4, .w1c, 0, false⟩,
   ⟨0x100, 1, 0, 7, 0, .rwb, 95, false⟩,
   ⟨0x100, 1, 0, 15, 8, .ro, 110, false⟩,
   ⟨0x104, 1, 0, 9, 0, .ro, 0, false⟩,
   ⟨0x104, 1, 0, 25, 16, .ro, 0, false⟩,
   ⟨0x108, 1, 0, 9, 0, .ro, 0, false⟩,
   ⟨0x110, 24, 4, 7, 0, .ro, 0, false⟩,
   ⟨0x170, 1, 0, 7, 0, .ro, 0, false⟩,
   ⟨0x170, 1, 0, 15, 8, .ro, 0, false⟩,
   ⟨0x174, 1, 0, 7, 0, .ro, 0, false⟩,
   ⟨0x174, 1, 0, 15, 8, .ro, 0, false⟩,
   ⟨0x174, 1, 0, 23, 16, .ro, 0, false⟩,
   ⟨0x174, 1, 0, 31, 24, .ro, 0, false⟩,
   ⟨0x01C, 1, 0, 0, 0, .rw, 0, false⟩,
   ⟨0x01C, 1, 0, 1, 1, .rw, 0, false⟩]

/-- The THM page, part 2 (R390). -/
def rowsThm2 : List FieldRow :=
  [⟨0x01C, 1, 0, 2, 2, .rw, 0, false⟩,
   ⟨0x01C, 1, 0, 3, 3, .rw, 0, false⟩,
   ⟨0x01C, 1, 0, 4, 4, .rw, 0, false⟩]

/-- The thm page (R390). -/
def rowsThm : List FieldRow := rowsThm1 ++ rowsThm2

/-- The BUP page, part 1 (R422, R423). -/
def rowsBup1 : List FieldRow :=
  [⟨0x010, 1, 0, 3, 0, .ro, 1, false⟩,
   ⟨0x010, 1, 0, 7, 4, .ro, 0, false⟩,
   ⟨0x010, 1, 0, 8, 8, .ro, 0, false⟩,
   ⟨0x010, 1, 0, 9, 9, .ro, 0, false⟩,
   ⟨0x010, 1, 0, 10, 10, .ro, 0, false⟩,
   ⟨0x010, 1, 0, 11, 11, .ro, 0, false⟩,
   ⟨0x014, 1, 0, 0, 0, .rw, 0, false⟩,
   ⟨0x018, 1, 0, 0, 0, .w1c, 0, false⟩,
   ⟨0x018, 1, 0, 1, 1, .w1c, 0, false⟩,
   ⟨0x018, 1, 0, 2, 2, .w1c, 0, false⟩,
   ⟨0x018, 1, 0, 3, 3, .w1c, 0, false⟩,
   ⟨0x018, 1, 0, 4, 4, .w1c, 0, false⟩,
   ⟨0x018, 1, 0, 5, 5, .w1c, 0, false⟩,
   ⟨0x100, 1, 0, 3, 0, .wo, 0, false⟩,
   ⟨0x100, 1, 0, 31, 16, .wo, 0, false⟩,
   ⟨0x104, 1, 0, 31, 0, .wo, 0, false⟩,
   ⟨0x108, 1, 0, 3, 0, .ro, 0, false⟩,
   ⟨0x108, 1, 0, 15, 8, .ro, 0, false⟩,
   ⟨0x10C, 1, 0, 10, 0, .ro, 0, false⟩,
   ⟨0x110, 1, 0, 11, 0, .ro, 0, false⟩,
   ⟨0x110, 1, 0, 12, 12, .ro, 0, false⟩,
   ⟨0x114, 1, 0, 15, 0, .rwb, 480, false⟩,
   ⟨0x118, 1, 0, 20, 0, .ro, 0, false⟩,
   ⟨0x11C, 1, 0, 31, 0, .ro, 0, false⟩]

/-- The BUP page, part 2 (R422, R423). -/
def rowsBup2 : List FieldRow :=
  [⟨0x124, 7, 4, 31, 0, .ro, 0, false⟩,
   ⟨0x140, 1, 0, 15, 0, .ro, 0, false⟩,
   ⟨0x01C, 1, 0, 0, 0, .rw, 0, false⟩,
   ⟨0x01C, 1, 0, 1, 1, .rw, 0, false⟩,
   ⟨0x01C, 1, 0, 2, 2, .rw, 0, false⟩,
   ⟨0x01C, 1, 0, 3, 3, .rw, 0, false⟩,
   ⟨0x01C, 1, 0, 4, 4, .rw, 0, false⟩,
   ⟨0x01C, 1, 0, 5, 5, .rw, 0, false⟩]

/-- The bup page (R422, R423). -/
def rowsBup : List FieldRow := rowsBup1 ++ rowsBup2

/-- The FUS page, part 1 (R425, R426). -/
def rowsFus1 : List FieldRow :=
  [⟨0x010, 1, 0, 1, 0, .ro, 0, false⟩,
   ⟨0x010, 1, 0, 2, 2, .ro, 0, false⟩,
   ⟨0x010, 1, 0, 3, 3, .ro, 0, false⟩,
   ⟨0x010, 1, 0, 4, 4, .ro, 0, false⟩,
   ⟨0x014, 1, 0, 31, 0, .rw, 0, true⟩,
   ⟨0x018, 1, 0, 0, 0, .w1c, 0, false⟩,
   ⟨0x018, 1, 0, 1, 1, .w1c, 0, false⟩,
   ⟨0x018, 1, 0, 2, 2, .w1c, 0, false⟩,
   ⟨0x018, 1, 0, 3, 3, .w1c, 0, false⟩,
   ⟨0x018, 1, 0, 4, 4, .w1c, 0, false⟩,
   ⟨0x100, 1, 0, 31, 0, .ro, 0, false⟩,
   ⟨0x104, 1, 0, 31, 0, .ro, 0, false⟩,
   ⟨0x108, 1, 0, 5, 0, .ro, 0, false⟩,
   ⟨0x108, 1, 0, 23, 8, .ro, 0, false⟩,
   ⟨0x108, 1, 0, 27, 24, .ro, 0, false⟩,
   ⟨0x108, 1, 0, 28, 28, .ro, 0, false⟩,
   ⟨0x10C, 1, 0, 6, 0, .ro, 0, false⟩,
   ⟨0x110, 1, 0, 31, 0, .ro, 0, false⟩,
   ⟨0x114, 1, 0, 31, 0, .ro, 0, false⟩,
   ⟨0x118, 1, 0, 31, 0, .ro, 0, false⟩,
   ⟨0x11C, 1, 0, 6, 0, .ro, 0, false⟩,
   ⟨0x11C, 1, 0, 28, 16, .ro, 0, false⟩,
   ⟨0x120, 1, 0, 16, 0, .ro, 0, false⟩,
   ⟨0x124, 1, 0, 31, 0, .ro, 0, false⟩]

/-- The FUS page, part 2 (R425, R426). -/
def rowsFus2 : List FieldRow :=
  [⟨0x128, 1, 0, 16, 0, .ro, 0, false⟩,
   ⟨0x12C, 1, 0, 16, 0, .rw, 0, false⟩,
   ⟨0x130, 4, 4, 31, 0, .ro, 0, false⟩,
   ⟨0x140, 1, 0, 31, 0, .ro, 0, false⟩,
   ⟨0x144, 1, 0, 31, 0, .ro, 0, false⟩,
   ⟨0x01C, 1, 0, 0, 0, .rw, 0, false⟩,
   ⟨0x01C, 1, 0, 1, 1, .rw, 0, false⟩,
   ⟨0x01C, 1, 0, 2, 2, .rw, 0, false⟩,
   ⟨0x01C, 1, 0, 3, 3, .rw, 0, false⟩,
   ⟨0x01C, 1, 0, 4, 4, .rw, 0, false⟩]

/-- The fus page (R425, R426). -/
def rowsFus : List FieldRow := rowsFus1 ++ rowsFus2

/-- The TEL page, part 1 (R449, R450). -/
def rowsTel1 : List FieldRow :=
  [⟨0x010, 1, 0, 1, 0, .ro, 0, false⟩,
   ⟨0x010, 1, 0, 2, 2, .ro, 0, false⟩,
   ⟨0x010, 1, 0, 3, 3, .ro, 0, false⟩,
   ⟨0x010, 1, 0, 4, 4, .ro, 0, false⟩,
   ⟨0x010, 1, 0, 7, 5, .ro, 0, false⟩,
   ⟨0x010, 1, 0, 10, 8, .ro, 0, false⟩,
   ⟨0x010, 1, 0, 15, 11, .ro, 0, false⟩,
   ⟨0x010, 1, 0, 20, 16, .ro, 0, false⟩,
   ⟨0x014, 1, 0, 0, 0, .rw, 0, false⟩,
   ⟨0x014, 1, 0, 1, 1, .rwb, 0, false⟩,
   ⟨0x018, 1, 0, 0, 0, .w1c, 0, false⟩,
   ⟨0x018, 1, 0, 1, 1, .w1c, 0, false⟩,
   ⟨0x018, 1, 0, 2, 2, .w1c, 0, false⟩,
   ⟨0x018, 1, 0, 3, 3, .w1c, 0, false⟩,
   ⟨0x100, 1, 0, 0, 0, .wo, 0, false⟩,
   ⟨0x100, 1, 0, 1, 1, .wo, 0, false⟩,
   ⟨0x104, 1, 0, 7, 0, .rw, 64, false⟩,
   ⟨0x104, 1, 0, 11, 8, .rw, 8, false⟩,
   ⟨0x108, 1, 0, 31, 9, .rw, 0, false⟩,
   ⟨0x10C, 1, 0, 19, 0, .rw, 0, false⟩,
   ⟨0x110, 1, 0, 15, 0, .ro, 0, false⟩,
   ⟨0x110, 1, 0, 31, 16, .rw, 0, false⟩,
   ⟨0x120, 16, 8, 0, 0, .rw, 0, false⟩,
   ⟨0x120, 16, 8, 1, 1, .rw, 0, false⟩]

/-- The TEL page, part 2 (R449, R450). -/
def rowsTel2 : List FieldRow :=
  [⟨0x120, 16, 8, 31, 21, .rw, 0, false⟩,
   ⟨0x124, 16, 8, 31, 0, .rw, 0, false⟩,
   ⟨0x1A0, 1, 0, 31, 0, .ro, 0, false⟩,
   ⟨0x1A4, 1, 0, 31, 0, .ro, 0, false⟩,
   ⟨0x1A8, 1, 0, 31, 0, .ro, 0, false⟩,
   ⟨0x1AC, 1, 0, 31, 0, .ro, 0, false⟩,
   ⟨0x1B0, 1, 0, 9, 0, .rw, 0, false⟩,
   ⟨0x01C, 1, 0, 0, 0, .rw, 0, false⟩,
   ⟨0x01C, 1, 0, 1, 1, .rw, 0, false⟩,
   ⟨0x01C, 1, 0, 2, 2, .rw, 0, false⟩,
   ⟨0x01C, 1, 0, 3, 3, .rw, 0, false⟩]

/-- The tel page (R449, R450). -/
def rowsTel : List FieldRow := rowsTel1 ++ rowsTel2

/-- The TRC page (R451, R452). -/
def rowsTrc : List FieldRow :=
  [⟨0x010, 1, 0, 0, 0, .ro, 0, false⟩,
   ⟨0x014, 1, 0, 0, 0, .rw, 0, false⟩,
   ⟨0x014, 1, 0, 1, 1, .rw, 0, false⟩,
   ⟨0x014, 1, 0, 2, 2, .rw, 0, false⟩,
   ⟨0x014, 1, 0, 3, 3, .rw, 0, false⟩,
   ⟨0x018, 1, 0, 0, 0, .w1c, 0, false⟩,
   ⟨0x018, 1, 0, 1, 1, .w1c, 0, false⟩,
   ⟨0x018, 1, 0, 2, 2, .w1c, 0, false⟩,
   ⟨0x100, 1, 0, 1, 0, .rw, 0, false⟩,
   ⟨0x100, 1, 0, 12, 8, .rw, 0, false⟩,
   ⟨0x104, 1, 0, 15, 0, .ro, 0, false⟩,
   ⟨0x104, 1, 0, 31, 16, .rw, 0, false⟩,
   ⟨0x108, 1, 0, 14, 0, .rw, 1024, false⟩,
   ⟨0x10C, 1, 0, 12, 0, .ro, 0, false⟩,
   ⟨0x10C, 1, 0, 30, 16, .ro, 0, false⟩,
   ⟨0x01C, 1, 0, 0, 0, .rw, 0, false⟩,
   ⟨0x01C, 1, 0, 1, 1, .rw, 0, false⟩,
   ⟨0x01C, 1, 0, 2, 2, .rw, 0, false⟩]

/-- The CORE page, part 1 (R90 to R93). -/
def rowsCore1 : List FieldRow :=
  [⟨0x010, 1, 0, 0, 0, .ro, 0, false⟩,
   ⟨0x010, 1, 0, 1, 1, .ro, 0, false⟩,
   ⟨0x010, 1, 0, 2, 2, .ro, 0, false⟩,
   ⟨0x010, 1, 0, 3, 3, .ro, 0, false⟩,
   ⟨0x010, 1, 0, 4, 4, .ro, 0, false⟩,
   ⟨0x010, 1, 0, 5, 5, .ro, 0, false⟩,
   ⟨0x010, 1, 0, 12, 8, .ro, 0, false⟩,
   ⟨0x014, 1, 0, 0, 0, .rw, 0, false⟩,
   ⟨0x014, 1, 0, 1, 1, .rw, 0, false⟩,
   ⟨0x018, 1, 0, 0, 0, .w1c, 0, false⟩,
   ⟨0x018, 1, 0, 1, 1, .w1c, 0, false⟩,
   ⟨0x018, 1, 0, 2, 2, .w1c, 0, false⟩,
   ⟨0x018, 1, 0, 3, 3, .w1c, 0, false⟩,
   ⟨0x018, 1, 0, 4, 4, .w1c, 0, false⟩,
   ⟨0x018, 1, 0, 5, 5, .w1c, 0, false⟩,
   ⟨0x018, 1, 0, 6, 6, .w1c, 0, false⟩,
   ⟨0x018, 1, 0, 7, 7, .w1c, 0, false⟩,
   ⟨0x100, 1, 0, 6, 0, .ro, 0, false⟩,
   ⟨0x100, 1, 0, 12, 8, .ro, 0, false⟩,
   ⟨0x100, 1, 0, 17, 16, .ro, 0, false⟩,
   ⟨0x104, 1, 0, 8, 0, .ro, 0, false⟩,
   ⟨0x104, 1, 0, 24, 16, .ro, 0, false⟩,
   ⟨0x110, 8, 4, 8, 0, .ro, 0, false⟩,
   ⟨0x110, 8, 4, 15, 15, .ro, 0, false⟩]

/-- The CORE page, part 2 (R90 to R93). -/
def rowsCore2 : List FieldRow :=
  [⟨0x110, 8, 4, 24, 16, .ro, 0, false⟩,
   ⟨0x110, 8, 4, 31, 31, .ro, 0, false⟩,
   ⟨0x140, 1, 0, 7, 0, .rwb, 0, false⟩,
   ⟨0x140, 1, 0, 15, 8, .rwb, 32, false⟩,
   ⟨0x144, 1, 0, 0, 0, .ro, 0, false⟩,
   ⟨0x144, 1, 0, 1, 1, .ro, 0, false⟩,
   ⟨0x150, 1, 0, 6, 0, .rwb, 16, false⟩,
   ⟨0x154, 1, 0, 9, 0, .ro, 0, false⟩,
   ⟨0x154, 1, 0, 25, 16, .ro, 0, false⟩,
   ⟨0x158, 1, 0, 14, 0, .ro, 0, false⟩,
   ⟨0x158, 1, 0, 30, 16, .ro, 0, false⟩,
   ⟨0x01C, 1, 0, 0, 0, .rw, 0, false⟩,
   ⟨0x01C, 1, 0, 1, 1, .rw, 0, false⟩,
   ⟨0x01C, 1, 0, 2, 2, .rw, 0, false⟩,
   ⟨0x01C, 1, 0, 3, 3, .rw, 0, false⟩,
   ⟨0x01C, 1, 0, 4, 4, .rw, 0, false⟩,
   ⟨0x01C, 1, 0, 5, 5, .rw, 0, false⟩,
   ⟨0x01C, 1, 0, 6, 6, .rw, 0, false⟩,
   ⟨0x01C, 1, 0, 7, 7, .rw, 0, false⟩]

/-- The core page (R90 to R93). -/
def rowsCore : List FieldRow := rowsCore1 ++ rowsCore2

/-- The SPX page, part 1 (R120 to R123). -/
def rowsSpx1 : List FieldRow :=
  [⟨0x010, 1, 0, 0, 0, .ro, 0, false⟩,
   ⟨0x010, 1, 0, 2, 1, .ro, 0, false⟩,
   ⟨0x010, 1, 0, 3, 3, .ro, 0, false⟩,
   ⟨0x010, 1, 0, 4, 4, .ro, 0, false⟩,
   ⟨0x014, 1, 0, 0, 0, .rwb, 1, false⟩,
   ⟨0x014, 1, 0, 1, 1, .rwb, 1, false⟩,
   ⟨0x018, 1, 0, 0, 0, .w1c, 0, false⟩,
   ⟨0x018, 1, 0, 1, 1, .w1c, 0, false⟩,
   ⟨0x018, 1, 0, 2, 2, .w1c, 0, false⟩,
   ⟨0x018, 1, 0, 3, 3, .w1c, 0, false⟩,
   ⟨0x018, 1, 0, 4, 4, .w1c, 0, false⟩,
   ⟨0x018, 1, 0, 5, 5, .w1c, 0, false⟩,
   ⟨0x018, 1, 0, 6, 6, .w1c, 0, false⟩,
   ⟨0x100, 1, 0, 10, 0, .rwb, 448, false⟩,
   ⟨0x104, 1, 0, 5, 0, .ro, 16, false⟩,
   ⟨0x104, 1, 0, 13, 8, .ro, 32, false⟩,
   ⟨0x104, 1, 0, 19, 16, .ro, 4, false⟩,
   ⟨0x104, 1, 0, 23, 20, .ro, 2, false⟩,
   ⟨0x110, 1, 0, 16, 0, .ro, 0, false⟩,
   ⟨0x118, 1, 0, 31, 0, .ro, 0, false⟩,
   ⟨0x11C, 1, 0, 19, 0, .ro, 0, false⟩,
   ⟨0x120, 1, 0, 19, 0, .ro, 0, false⟩,
   ⟨0x01C, 1, 0, 0, 0, .rw, 0, false⟩,
   ⟨0x01C, 1, 0, 1, 1, .rw, 0, false⟩]

/-- The SPX page, part 2 (R120 to R123). -/
def rowsSpx2 : List FieldRow :=
  [⟨0x01C, 1, 0, 2, 2, .rw, 0, false⟩,
   ⟨0x01C, 1, 0, 3, 3, .rw, 0, false⟩,
   ⟨0x01C, 1, 0, 4, 4, .rw, 0, false⟩,
   ⟨0x01C, 1, 0, 5, 5, .rw, 0, false⟩,
   ⟨0x01C, 1, 0, 6, 6, .rw, 0, false⟩]

/-- The spx page (R120 to R123). -/
def rowsSpx : List FieldRow := rowsSpx1 ++ rowsSpx2

/-- The SLC page (R199). -/
def rowsSlc : List FieldRow :=
  [⟨0x010, 1, 0, 9, 0, .ro, 0, false⟩,
   ⟨0x014, 1, 0, 31, 0, .rw, 0, true⟩,
   ⟨0x018, 1, 0, 0, 0, .w1c, 0, false⟩,
   ⟨0x018, 1, 0, 1, 1, .w1c, 0, false⟩,
   ⟨0x018, 1, 0, 2, 2, .w1c, 0, false⟩,
   ⟨0x100, 1, 0, 9, 0, .rwb, 64, false⟩,
   ⟨0x100, 1, 0, 31, 16, .rwb, 2048, false⟩,
   ⟨0x104, 1, 0, 4, 0, .ro, 0, false⟩,
   ⟨0x01C, 1, 0, 0, 0, .rw, 0, false⟩,
   ⟨0x01C, 1, 0, 1, 1, .rw, 0, false⟩,
   ⟨0x01C, 1, 0, 2, 2, .rw, 0, false⟩]

/-- The fabTile page (R227). -/
def rowsFabTile : List FieldRow :=
  [⟨0x010, 1, 0, 11, 0, .ro, 0, false⟩,
   ⟨0x010, 1, 0, 23, 12, .ro, 0, false⟩,
   ⟨0x010, 1, 0, 24, 24, .ro, 0, false⟩,
   ⟨0x014, 1, 0, 31, 0, .rw, 0, true⟩,
   ⟨0x018, 1, 0, 0, 0, .w1c, 0, false⟩,
   ⟨0x018, 1, 0, 1, 1, .w1c, 0, false⟩,
   ⟨0x100, 1, 0, 14, 0, .ro, 0, false⟩,
   ⟨0x01C, 1, 0, 0, 0, .rw, 0, false⟩,
   ⟨0x01C, 1, 0, 1, 1, .rw, 0, false⟩]

/-- The crdTile page (R255). -/
def rowsCrdTile : List FieldRow :=
  [⟨0x010, 1, 0, 0, 0, .ro, 0, false⟩,
   ⟨0x010, 1, 0, 8, 1, .ro, 0, false⟩,
   ⟨0x014, 1, 0, 31, 0, .rw, 0, true⟩,
   ⟨0x018, 1, 0, 0, 0, .w1c, 0, false⟩,
   ⟨0x018, 1, 0, 1, 1, .w1c, 0, false⟩,
   ⟨0x018, 1, 0, 2, 2, .w1c, 0, false⟩,
   ⟨0x018, 1, 0, 3, 3, .w1c, 0, false⟩,
   ⟨0x01C, 1, 0, 0, 0, .rw, 0, false⟩,
   ⟨0x01C, 1, 0, 1, 1, .rw, 0, false⟩,
   ⟨0x01C, 1, 0, 2, 2, .rw, 0, false⟩,
   ⟨0x01C, 1, 0, 3, 3, .rw, 0, false⟩]

/-- The pwrTile page (R388, R389). -/
def rowsPwrTile : List FieldRow :=
  [⟨0x010, 1, 0, 4, 0, .ro, 0, false⟩,
   ⟨0x010, 1, 0, 5, 5, .ro, 0, false⟩,
   ⟨0x010, 1, 0, 7, 6, .ro, 0, false⟩,
   ⟨0x010, 1, 0, 12, 8, .ro, 0, false⟩,
   ⟨0x010, 1, 0, 20, 16, .ro, 16, false⟩,
   ⟨0x014, 1, 0, 31, 0, .rw, 0, true⟩,
   ⟨0x018, 1, 0, 0, 0, .w1c, 0, false⟩,
   ⟨0x018, 1, 0, 1, 1, .w1c, 0, false⟩,
   ⟨0x018, 1, 0, 2, 2, .w1c, 0, false⟩,
   ⟨0x018, 1, 0, 3, 3, .w1c, 0, false⟩,
   ⟨0x018, 1, 0, 4, 4, .w1c, 0, false⟩,
   ⟨0x018, 1, 0, 5, 5, .w1c, 0, false⟩,
   ⟨0x100, 29, 4, 1, 0, .ro, 0, false⟩,
   ⟨0x100, 29, 4, 15, 4, .ro, 0, false⟩,
   ⟨0x100, 29, 4, 25, 16, .ro, 0, false⟩,
   ⟨0x180, 1, 0, 10, 0, .ro, 1300, false⟩,
   ⟨0x184, 1, 0, 7, 0, .ro, 0, false⟩,
   ⟨0x01C, 1, 0, 0, 0, .rw, 0, false⟩,
   ⟨0x01C, 1, 0, 1, 1, .rw, 0, false⟩,
   ⟨0x01C, 1, 0, 2, 2, .rw, 0, false⟩,
   ⟨0x01C, 1, 0, 3, 3, .rw, 0, false⟩,
   ⟨0x01C, 1, 0, 4, 4, .rw, 0, false⟩,
   ⟨0x01C, 1, 0, 5, 5, .rw, 0, false⟩]

/-- The HB page, part 1 (R316, R317). -/
def rowsHb1 : List FieldRow :=
  [⟨0x010, 1, 0, 2, 0, .ro, 0, false⟩,
   ⟨0x010, 1, 0, 3, 3, .ro, 0, false⟩,
   ⟨0x010, 1, 0, 4, 4, .ro, 0, false⟩,
   ⟨0x010, 1, 0, 6, 5, .ro, 0, false⟩,
   ⟨0x010, 1, 0, 8, 7, .ro, 0, false⟩,
   ⟨0x010, 1, 0, 9, 9, .ro, 0, false⟩,
   ⟨0x014, 1, 0, 1, 0, .rwb, 0, false⟩,
   ⟨0x014, 1, 0, 2, 2, .rwb, 0, false⟩,
   ⟨0x018, 1, 0, 0, 0, .w1c, 0, false⟩,
   ⟨0x018, 1, 0, 1, 1, .w1c, 0, false⟩,
   ⟨0x018, 1, 0, 2, 2, .w1c, 0, false⟩,
   ⟨0x018, 1, 0, 3, 3, .w1c, 0, false⟩,
   ⟨0x018, 1, 0, 4, 4, .w1c, 0, false⟩,
   ⟨0x018, 1, 0, 5, 5, .w1c, 0, false⟩,
   ⟨0x100, 1, 0, 17, 0, .ro, 0, false⟩,
   ⟨0x104, 1, 0, 17, 0, .ro, 0, false⟩,
   ⟨0x108, 1, 0, 17, 0, .ro, 0, false⟩,
   ⟨0x10C, 1, 0, 17, 0, .ro, 0, false⟩,
   ⟨0x110, 1, 0, 4, 0, .ro, 0, false⟩,
   ⟨0x110, 1, 0, 8, 8, .ro, 0, false⟩,
   ⟨0x110, 1, 0, 10, 9, .ro, 0, false⟩,
   ⟨0x01C, 1, 0, 0, 0, .rw, 0, false⟩,
   ⟨0x01C, 1, 0, 1, 1, .rw, 0, false⟩,
   ⟨0x01C, 1, 0, 2, 2, .rw, 0, false⟩]

/-- The HB page, part 2 (R316, R317). -/
def rowsHb2 : List FieldRow :=
  [⟨0x01C, 1, 0, 3, 3, .rw, 0, false⟩,
   ⟨0x01C, 1, 0, 4, 4, .rw, 0, false⟩,
   ⟨0x01C, 1, 0, 5, 5, .rw, 0, false⟩]

/-- The hb page (R316, R317). -/
def rowsHb : List FieldRow := rowsHb1 ++ rowsHb2

/-- The DRM page (R200). -/
def rowsDrm : List FieldRow :=
  [⟨0x010, 1, 0, 5, 0, .ro, 0, false⟩,
   ⟨0x014, 1, 0, 31, 0, .rw, 0, true⟩,
   ⟨0x018, 1, 0, 0, 0, .w1c, 0, false⟩,
   ⟨0x018, 1, 0, 1, 1, .w1c, 0, false⟩,
   ⟨0x018, 1, 0, 2, 2, .w1c, 0, false⟩,
   ⟨0x100, 1, 0, 31, 0, .ro, 0, false⟩,
   ⟨0x104, 1, 0, 31, 0, .ro, 0, false⟩,
   ⟨0x01C, 1, 0, 0, 0, .rw, 0, false⟩,
   ⟨0x01C, 1, 0, 1, 1, .rw, 0, false⟩,
   ⟨0x01C, 1, 0, 2, 2, .rw, 0, false⟩]

/-- The field rows of a page layout. -/
def rowsOf : PageKind → List FieldRow
  | .mod => rowsMod
  | .lic => rowsLic
  | .evt => rowsEvt
  | .tk => rowsTk
  | .role => rowsRole
  | .opq0 => rowsOpq0
  | .opq => rowsOpq
  | .mem => rowsMem
  | .shf => rowsShf
  | .fabSpine => rowsFabSpine
  | .crdGlobal => rowsCrdGlobal
  | .ful => rowsFul
  | .hbGlobal => rowsHbGlobal
  | .nol => rowsNol
  | .clk => rowsClk
  | .pwrGlobal => rowsPwrGlobal
  | .thm => rowsThm
  | .bup => rowsBup
  | .fus => rowsFus
  | .tel => rowsTel
  | .trc => rowsTrc
  | .core => rowsCore
  | .spx => rowsSpx
  | .slc => rowsSlc
  | .fabTile => rowsFabTile
  | .crdTile => rowsCrdTile
  | .pwrTile => rowsPwrTile
  | .hb => rowsHb
  | .drm => rowsDrm
  | .msixTable | .msixPba | .reserved => []

/-- The class of each EVENT bit; for a bit whose class depends on the event, the lower class (R462). -/
def eventClass : PageKind → Nat → FClass
  | .tk, 0 => .a
  | .tk, 2 => .a
  | .role, 2 => .b
  | .mem, 2 => .b
  | .shf, 2 => .a
  | .shf, 3 => .a
  | .shf, 4 => .a
  | .fabSpine, 0 => .a
  | .fabSpine, 1 => .a
  | .fabSpine, 2 => .a
  | .fabSpine, 3 => .c
  | .ful, 0 => .b
  | .ful, 1 => .a
  | .ful, 4 => .b
  | .hbGlobal, 0 => .a
  | .nol, 1 => .b
  | .nol, 2 => .b
  | .clk, 0 => .c
  | .clk, 1 => .a
  | .clk, 2 => .a
  | .clk, 3 => .a
  | .pwrGlobal, 0 => .a
  | .pwrGlobal, 1 => .c
  | .pwrGlobal, 2 => .a
  | .pwrGlobal, 3 => .a
  | .pwrGlobal, 5 => .a
  | .thm, 0 => .a
  | .thm, 1 => .a
  | .thm, 2 => .a
  | .thm, 3 => .c
  | .thm, 4 => .a
  | .fus, 1 => .a
  | .fus, 2 => .c
  | .tel, 2 => .a
  | .core, 0 => .a
  | .core, 1 => .b
  | .core, 2 => .b
  | .core, 5 => .a
  | .core, 6 => .a
  | .core, 7 => .b
  | .spx, 5 => .a
  | .spx, 6 => .a
  | .slc, 0 => .a
  | .slc, 1 => .a
  | .slc, 2 => .a
  | .fabTile, 0 => .a
  | .fabTile, 1 => .a
  | .crdTile, 0 => .a
  | .crdTile, 1 => .a
  | .pwrTile, 0 => .a
  | .pwrTile, 1 => .a
  | .pwrTile, 2 => .a
  | .pwrTile, 3 => .c
  | .pwrTile, 4 => .a
  | .pwrTile, 5 => .a
  | .hb, 0 => .a
  | .hb, 1 => .a
  | .hb, 2 => .a
  | .hb, 3 => .a
  | .hb, 4 => .a
  | .hb, 5 => .a
  | .drm, 0 => .a
  | .drm, 1 => .a
  | .drm, 2 => .c
  | _, _ => .none

/-- The offsets of a page's 64-bit counters, as (base, count, stride). -/
def countersOf : PageKind → List (Nat × Nat × Nat)
  | .mod => [(0x800, 1, 8), (0x808, 1, 8), (0x810, 1, 8), (0x818, 1, 8), (0x820, 1, 8)]
  | .tk => [(0x800, 1, 8), (0x808, 1, 8), (0x810, 1, 8), (0x818, 1, 8), (0x820, 1, 8), (0x828, 1, 8), (0x830, 1, 8)]
  | .role => [(0x800, 1, 8), (0x808, 1, 8), (0x810, 1, 8), (0x818, 1, 8), (0x820, 1, 8), (0x828, 1, 8)]
  | .opq0 => [(0x800, 1, 8), (0x808, 1, 8), (0x810, 1, 8), (0x818, 1, 8), (0x820, 1, 8), (0x828, 1, 8), (0x830, 1, 8), (0x838, 1, 8), (0x840, 1, 8), (0x848, 1, 8), (0x850, 1, 8)]
  | .opq => [(0x800, 16, 16), (0x808, 16, 16)]
  | .mem => [(0x800, 8, 8), (0x840, 1, 8), (0x848, 1, 8), (0x850, 1, 8), (0x858, 1, 8), (0x860, 1, 8), (0x868, 1, 8), (0x870, 1, 8), (0x878, 1, 8)]
  | .shf => [(0x800, 1, 8), (0x808, 1, 8), (0x810, 1, 8), (0x818, 1, 8), (0x820, 1, 8), (0x828, 1, 8), (0x830, 1, 8)]
  | .fabSpine => [(0x800, 1, 8), (0x808, 1, 8), (0x810, 1, 8), (0x818, 1, 8), (0x820, 1, 8), (0x828, 1, 8), (0x830, 1, 8), (0x838, 1, 8), (0x840, 1, 8)]
  | .crdGlobal => [(0x800, 1, 8), (0x808, 1, 8), (0x810, 1, 8), (0x818, 1, 8), (0x820, 1, 8), (0x828, 1, 8), (0x830, 1, 8), (0x838, 1, 8), (0x840, 1, 8), (0x848, 1, 8)]
  | .ful => [(0x800, 1, 8), (0x808, 1, 8), (0x810, 1, 8), (0x818, 1, 8), (0x820, 1, 8), (0x828, 1, 8), (0x830, 1, 8), (0x838, 1, 8), (0x840, 1, 8), (0x848, 1, 8), (0x850, 1, 8), (0x858, 1, 8), (0x860, 1, 8), (0x868, 1, 8), (0x870, 1, 8), (0x878, 1, 8), (0x880, 1, 8), (0x888, 1, 8)]
  | .nol => [(0x800, 1, 8), (0x808, 1, 8), (0x810, 1, 8), (0x818, 1, 8), (0x820, 1, 8), (0x828, 1, 8), (0x830, 1, 8), (0x838, 1, 8), (0x840, 1, 8), (0x848, 1, 8), (0x850, 1, 8)]
  | .clk => [(0x800, 1, 8), (0x808, 1, 8), (0x810, 1, 8), (0x818, 1, 8), (0x820, 1, 8), (0x828, 1, 8)]
  | .pwrGlobal => [(0x800, 1, 8), (0x808, 1, 8), (0x810, 1, 8), (0x818, 1, 8), (0x820, 1, 8), (0x828, 1, 8), (0x830, 1, 8)]
  | .thm => [(0x800, 1, 8), (0x808, 1, 8), (0x810, 1, 8), (0x818, 1, 8)]
  | .bup => [(0x800, 1, 8), (0x808, 1, 8), (0x810, 1, 8), (0x818, 1, 8), (0x820, 1, 8), (0x828, 1, 8), (0x830, 1, 8)]
  | .fus => [(0x800, 1, 8), (0x808, 1, 8), (0x810, 1, 8), (0x818, 1, 8)]
  | .tel => [(0x800, 1, 8), (0x808, 1, 8), (0x810, 1, 8), (0x818, 1, 8), (0x820, 1, 8), (0x828, 1, 8), (0x830, 1, 8), (0x838, 1, 8), (0x840, 1, 8), (0x848, 1, 8), (0x850, 1, 8), (0x858, 1, 8)]
  | .trc => [(0x800, 1, 8), (0x808, 1, 8), (0x810, 1, 8), (0x818, 1, 8), (0x820, 1, 8), (0x828, 1, 8), (0x830, 1, 8), (0x838, 1, 8), (0x840, 1, 8), (0x848, 1, 8)]
  | .core => [(0x800, 1, 8), (0x808, 1, 8), (0x810, 1, 8), (0x818, 1, 8), (0x820, 1, 8), (0x828, 1, 8), (0x830, 1, 8), (0x838, 1, 8), (0x840, 1, 8), (0x848, 1, 8), (0x850, 1, 8), (0x858, 1, 8), (0x860, 1, 8), (0x868, 1, 8), (0x870, 1, 8), (0x878, 1, 8), (0x880, 1, 8), (0x888, 1, 8)]
  | .spx => [(0x800, 1, 8), (0x808, 1, 8), (0x810, 1, 8), (0x818, 1, 8), (0x820, 1, 8), (0x828, 1, 8), (0x830, 1, 8), (0x838, 1, 8), (0x840, 1, 8), (0x848, 1, 8), (0x850, 1, 8), (0x858, 1, 8), (0x860, 1, 8), (0x868, 1, 8), (0x870, 1, 8), (0x878, 1, 8), (0x880, 1, 8)]
  | .slc => [(0x800, 1, 8), (0x808, 1, 8), (0x810, 1, 8), (0x818, 1, 8), (0x820, 1, 8), (0x828, 1, 8)]
  | .fabTile => [(0x800, 1, 8), (0x808, 1, 8), (0x810, 1, 8), (0x818, 1, 8), (0x820, 1, 8), (0x828, 1, 8)]
  | .crdTile => [(0x800, 1, 8), (0x808, 1, 8), (0x810, 1, 8), (0x818, 1, 8), (0x820, 1, 8), (0x828, 1, 8), (0x830, 1, 8), (0x838, 1, 8), (0x840, 1, 8), (0x848, 1, 8)]
  | .pwrTile => [(0x800, 1, 8), (0x808, 1, 8), (0x810, 1, 8), (0x818, 1, 8), (0x820, 1, 8)]
  | .hb => [(0x800, 1, 8), (0x808, 1, 8), (0x810, 1, 8), (0x818, 1, 8), (0x820, 1, 8), (0x828, 1, 8), (0x830, 1, 8), (0x838, 1, 8), (0x840, 1, 8), (0x848, 1, 8), (0x850, 1, 8), (0x858, 1, 8), (0x860, 1, 8)]
  | .drm => [(0x800, 1, 8), (0x808, 1, 8), (0x810, 1, 8), (0x818, 1, 8), (0x820, 1, 8), (0x828, 1, 8), (0x830, 1, 8)]
  | _ => []

/-- How many 64-bit counters a page defines (R461). -/
def counterCount (k : PageKind) : Nat := ((countersOf k).map (fun c => c.2.1)).foldl (· + ·) 0

namespace F

/-- STATUS.POWERED (R90). -/
def coreStatusPowered : Fld := ⟨0x010, 0, 0⟩
/-- STATUS.ENABLED (R90). -/
def coreStatusEnabled : Fld := ⟨0x010, 1, 1⟩
/-- STATUS.BUSY (R90). -/
def coreStatusBusy : Fld := ⟨0x010, 2, 2⟩
/-- STATUS.DEGRADED (R90). -/
def coreStatusDegraded : Fld := ⟨0x010, 3, 3⟩
/-- STATUS.SLOW (R90). -/
def coreStatusSlow : Fld := ⟨0x010, 4, 4⟩
/-- STATUS.QUARTER (R90). -/
def coreStatusQuarter : Fld := ⟨0x010, 5, 5⟩
/-- STATUS.SPARES_USED (R90). -/
def coreStatusSparesUsed : Fld := ⟨0x010, 12, 8⟩
/-- CONTROL.TRACE_EN (R91). -/
def coreControlTraceEn : Fld := ⟨0x014, 0, 0⟩
/-- CONTROL.STRAND_SAMPLE_EN (R91). -/
def coreControlStrandSampleEn : Fld := ⟨0x014, 1, 1⟩
/-- EVENT.WS_CE (R92). -/
def coreEventWsCe : Fld := ⟨0x018, 0, 0⟩
/-- EVENT.WS_UE (R92). -/
def coreEventWsUe : Fld := ⟨0x018, 1, 1⟩
/-- EVENT.ARRAY_CHECK (R92). -/
def coreEventArrayCheck : Fld := ⟨0x018, 2, 2⟩
/-- EVENT.WBUF_CONFLICT (R92). -/
def coreEventWbufConflict : Fld := ⟨0x018, 3, 3⟩
/-- EVENT.STRAND_FAULT (R92). -/
def coreEventStrandFault : Fld := ⟨0x018, 4, 4⟩
/-- EVENT.SE_SATURATED (R92). -/
def coreEventSeSaturated : Fld := ⟨0x018, 5, 5⟩
/-- EVENT.OVERRUN (R92). -/
def coreEventOverrun : Fld := ⟨0x018, 6, 6⟩
/-- EVENT.DEGRADED_SET (R92). -/
def coreEventDegradedSet : Fld := ⟨0x018, 7, 7⟩
/-- IDENT.CORE_INDEX (R93). -/
def coreIdentCoreIndex : Fld := ⟨0x100, 6, 0⟩
/-- IDENT.TILE (R93). -/
def coreIdentTile : Fld := ⟨0x100, 12, 8⟩
/-- IDENT.POSITION (R93). -/
def coreIdentPosition : Fld := ⟨0x100, 17, 16⟩
/-- SITES.GOOD_SITES (R93). -/
def coreSitesGoodSites : Fld := ⟨0x104, 8, 0⟩
/-- SITES.BAD_SITES (R93). -/
def coreSitesBadSites : Fld := ⟨0x104, 24, 16⟩
/-- SPARE_MAP.SITE_A (R93). -/
def coreSpareMapSiteA (i : Nat) : Fld := ⟨0x110 + 4 * i, 8, 0⟩
/-- SPARE_MAP.VALID_A (R93). -/
def coreSpareMapValidA (i : Nat) : Fld := ⟨0x110 + 4 * i, 15, 15⟩
/-- SPARE_MAP.SITE_B (R93). -/
def coreSpareMapSiteB (i : Nat) : Fld := ⟨0x110 + 4 * i, 24, 16⟩
/-- SPARE_MAP.VALID_B (R93). -/
def coreSpareMapValidB (i : Nat) : Fld := ⟨0x110 + 4 * i, 31, 31⟩
/-- WBUF.BASE_MIB (R93). -/
def coreWbufBaseMib : Fld := ⟨0x140, 7, 0⟩
/-- WBUF.HALF_MIB (R93). -/
def coreWbufHalfMib : Fld := ⟨0x140, 15, 8⟩
/-- WBUF_STATE.COMPUTE_HALF (R93). -/
def coreWbufStateComputeHalf : Fld := ⟨0x144, 0, 0⟩
/-- WBUF_STATE.FILL_SEALED (R93). -/
def coreWbufStateFillSealed : Fld := ⟨0x144, 1, 1⟩
/-- SE_CONFIG.DESC_RESERVE (R93). -/
def coreSeConfigDescReserve : Fld := ⟨0x150, 6, 0⟩
/-- SE_STATE.IN_USE (R93). -/
def coreSeStateInUse : Fld := ⟨0x154, 9, 0⟩
/-- SE_STATE.PEAK (R93). -/
def coreSeStatePeak : Fld := ⟨0x154, 25, 16⟩
/-- STRAND_STATE.LIVE (R93). -/
def coreStrandStateLive : Fld := ⟨0x158, 14, 0⟩
/-- STRAND_STATE.PEAK (R93). -/
def coreStrandStatePeak : Fld := ⟨0x158, 30, 16⟩
/-- STATUS.SPARSE_ACTIVE (R120). -/
def spxStatusSparseActive : Fld := ⟨0x010, 0, 0⟩
/-- STATUS.HACC_MODE (R120). -/
def spxStatusHaccMode : Fld := ⟨0x010, 2, 1⟩
/-- STATUS.SPILL_ACTIVE (R120). -/
def spxStatusSpillActive : Fld := ⟨0x010, 3, 3⟩
/-- STATUS.LINK_COMPRESS (R120). -/
def spxStatusLinkCompress : Fld := ⟨0x010, 4, 4⟩
/-- CONTROL.BITMAP_EN (R121). -/
def spxControlBitmapEn : Fld := ⟨0x014, 0, 0⟩
/-- CONTROL.LINK_COMPRESS_EN (R121). -/
def spxControlLinkCompressEn : Fld := ⟨0x014, 1, 1⟩
/-- EVENT.INDEX_ERROR (R122). -/
def spxEventIndexError : Fld := ⟨0x018, 0, 0⟩
/-- EVENT.RECORD_ERROR (R122). -/
def spxEventRecordError : Fld := ⟨0x018, 1, 1⟩
/-- EVENT.PRUNED_NONFINITE (R122). -/
def spxEventPrunedNonfinite : Fld := ⟨0x018, 2, 2⟩
/-- EVENT.QUARTER_DEMOTED (R122). -/
def spxEventQuarterDemoted : Fld := ⟨0x018, 3, 3⟩
/-- EVENT.HACC_MISUSE (R122). -/
def spxEventHaccMisuse : Fld := ⟨0x018, 4, 4⟩
/-- EVENT.HACC_SPILL (R122). -/
def spxEventHaccSpill : Fld := ⟨0x018, 5, 5⟩
/-- EVENT.SPILL_FULL (R122). -/
def spxEventSpillFull : Fld := ⟨0x018, 6, 6⟩
/-- THRESHOLD.COUNT_MAX (R123). -/
def spxThresholdCountMax : Fld := ⟨0x100, 10, 0⟩
/-- SLOT_INFO.SLOTS_1K (R123). -/
def spxSlotInfoSlots1k : Fld := ⟨0x104, 5, 0⟩
/-- SLOT_INFO.SLOTS_2K (R123). -/
def spxSlotInfoSlots2k : Fld := ⟨0x104, 13, 8⟩
/-- SLOT_INFO.DECODE_1K (R123). -/
def spxSlotInfoDecode1k : Fld := ⟨0x104, 19, 16⟩
/-- SLOT_INFO.DECODE_2K (R123). -/
def spxSlotInfoDecode2k : Fld := ⟨0x104, 23, 20⟩
/-- HACC_STATE.ENTRIES_USED (R123). -/
def spxHaccStateEntriesUsed : Fld := ⟨0x110, 16, 0⟩
/-- SPILL_BASE_LO.ADDR_LO (R123). -/
def spxSpillBaseLoAddrLo : Fld := ⟨0x118, 31, 0⟩
/-- SPILL_BASE_HI.ADDR_HI (R123). -/
def spxSpillBaseHiAddrHi : Fld := ⟨0x11C, 19, 0⟩
/-- SPILL_USED.RECORDS (R123). -/
def spxSpillUsedRecords : Fld := ⟨0x120, 19, 0⟩
/-- STATUS.PARTS_ACTIVE (R167). -/
def opq0StatusPartsActive : Fld := ⟨0x010, 4, 0⟩
/-- EVENT.DB_REJECTED (R167). -/
def opq0EventDbRejected : Fld := ⟨0x018, 0, 0⟩
/-- EVENT.QUEUE_OVERFLOW (R167). -/
def opq0EventQueueOverflow : Fld := ⟨0x018, 1, 1⟩
/-- EVENT.CRING_FULL (R167). -/
def opq0EventCringFull : Fld := ⟨0x018, 2, 2⟩
/-- EVENT.CTX_CONFIG (R167). -/
def opq0EventCtxConfig : Fld := ⟨0x018, 3, 3⟩
/-- EVENT.LEVEL_ERROR (R167). -/
def opq0EventLevelError : Fld := ⟨0x018, 4, 4⟩
/-- EVENT.REPLAY (R167). -/
def opq0EventReplay : Fld := ⟨0x018, 5, 5⟩
/-- EVENT.PART_REMAP (R167). -/
def opq0EventPartRemap : Fld := ⟨0x018, 6, 6⟩
/-- DOORBELL.PI (R168). -/
def opq0DoorbellPi (i : Nat) : Fld := ⟨0x100 + 4 * i, 15, 0⟩
/-- PART_CORES_LO.CORES (R168). -/
def opq0PartCoresLoCores (i : Nat) : Fld := ⟨0x500 + 16 * i, 31, 0⟩
/-- PART_CORES_MID.CORES (R168). -/
def opq0PartCoresMidCores (i : Nat) : Fld := ⟨0x504 + 16 * i, 31, 0⟩
/-- PART_CORES_HI.CORES (R168). -/
def opq0PartCoresHiCores (i : Nat) : Fld := ⟨0x508 + 16 * i, 31, 0⟩
/-- PART_CTRL.MIN_RUN (R168). -/
def opq0PartCtrlMinRun (i : Nat) : Fld := ⟨0x50C + 16 * i, 7, 0⟩
/-- PART_CTRL.RUNNING_CTX (R168). -/
def opq0PartCtrlRunningCtx (i : Nat) : Fld := ⟨0x50C + 16 * i, 23, 16⟩
/-- PART_CTRL.RUN_VALID (R168). -/
def opq0PartCtrlRunValid (i : Nat) : Fld := ⟨0x50C + 16 * i, 24, 24⟩
/-- PART_CTRL.STALLED (R168). -/
def opq0PartCtrlStalled (i : Nat) : Fld := ⟨0x50C + 16 * i, 25, 25⟩
/-- CTX_CFG.PARTITION (R170). -/
def opqCtxCfgPartition (i : Nat) : Fld := ⟨0x100 + 64 * i, 3, 0⟩
/-- CTX_CFG.LEVEL_PIN (R170). -/
def opqCtxCfgLevelPin (i : Nat) : Fld := ⟨0x100 + 64 * i, 15, 8⟩
/-- CTX_CFG.SHARE (R170). -/
def opqCtxCfgShare (i : Nat) : Fld := ⟨0x100 + 64 * i, 23, 16⟩
/-- CTX_CFG.STREAMER (R170). -/
def opqCtxCfgStreamer (i : Nat) : Fld := ⟨0x100 + 64 * i, 4, 4⟩
/-- CTX_STATE.STATE (R170). -/
def opqCtxStateState (i : Nat) : Fld := ⟨0x104 + 64 * i, 2, 0⟩
/-- CTX_STATE.CFG_ERR (R170). -/
def opqCtxStateCfgErr (i : Nat) : Fld := ⟨0x104 + 64 * i, 3, 3⟩
/-- CTX_STATE.IN_FLIGHT (R170). -/
def opqCtxStateInFlight (i : Nat) : Fld := ⟨0x104 + 64 * i, 13, 8⟩
/-- CTX_SLICE_BASE.BASE (R170). -/
def opqCtxSliceBaseBase (i : Nat) : Fld := ⟨0x108 + 64 * i, 30, 0⟩
/-- CTX_SLICE_PAGES.PAGES (R170). -/
def opqCtxSlicePagesPages (i : Nat) : Fld := ⟨0x10C + 64 * i, 30, 0⟩
/-- CTX_QBASE_LO.RING_LOG2 (R170). -/
def opqCtxQbaseLoRingLog2 (i : Nat) : Fld := ⟨0x110 + 64 * i, 4, 0⟩
/-- CTX_QBASE_LO.ADDR (R170). -/
def opqCtxQbaseLoAddr (i : Nat) : Fld := ⟨0x110 + 64 * i, 31, 12⟩
/-- CTX_QBASE_HI.ADDR (R170). -/
def opqCtxQbaseHiAddr (i : Nat) : Fld := ⟨0x114 + 64 * i, 19, 0⟩
/-- CTX_QINDEX.PI (R170). -/
def opqCtxQindexPi (i : Nat) : Fld := ⟨0x118 + 64 * i, 15, 0⟩
/-- CTX_QINDEX.CI (R170). -/
def opqCtxQindexCi (i : Nat) : Fld := ⟨0x118 + 64 * i, 31, 16⟩
/-- CTX_CBASE_LO.CRING_LOG2 (R170). -/
def opqCtxCbaseLoCringLog2 (i : Nat) : Fld := ⟨0x11C + 64 * i, 4, 0⟩
/-- CTX_CBASE_LO.ADDR (R170). -/
def opqCtxCbaseLoAddr (i : Nat) : Fld := ⟨0x11C + 64 * i, 31, 12⟩
/-- CTX_CBASE_HI.ADDR (R170). -/
def opqCtxCbaseHiAddr (i : Nat) : Fld := ⟨0x120 + 64 * i, 19, 0⟩
/-- CTX_CINDEX.WI (R170). -/
def opqCtxCindexWi (i : Nat) : Fld := ⟨0x124 + 64 * i, 15, 0⟩
/-- CTX_CINDEX.RI (R170). -/
def opqCtxCindexRi (i : Nat) : Fld := ⟨0x124 + 64 * i, 31, 16⟩
/-- CTX_SBASE_LO.SCALE_LOG2 (R170). -/
def opqCtxSbaseLoScaleLog2 (i : Nat) : Fld := ⟨0x128 + 64 * i, 3, 0⟩
/-- CTX_SBASE_LO.ADDR (R170). -/
def opqCtxSbaseLoAddr (i : Nat) : Fld := ⟨0x128 + 64 * i, 31, 12⟩
/-- CTX_SBASE_HI.ADDR (R170). -/
def opqCtxSbaseHiAddr (i : Nat) : Fld := ⟨0x12C + 64 * i, 19, 0⟩
/-- CTX_WS.BASE_MIB (R170). -/
def opqCtxWsBaseMib (i : Nat) : Fld := ⟨0x130 + 64 * i, 7, 0⟩
/-- CTX_WS.SIZE_MIB (R170). -/
def opqCtxWsSizeMib (i : Nat) : Fld := ⟨0x130 + 64 * i, 15, 8⟩
/-- CTX_CMD.ENABLE (R170). -/
def opqCtxCmdEnable (i : Nat) : Fld := ⟨0x134 + 64 * i, 0, 0⟩
/-- CTX_CMD.RESET (R170). -/
def opqCtxCmdReset (i : Nat) : Fld := ⟨0x134 + 64 * i, 1, 1⟩
/-- CTX_CMD.DISABLE (R170). -/
def opqCtxCmdDisable (i : Nat) : Fld := ⟨0x134 + 64 * i, 2, 2⟩
/-- CTX_LAST_STEP.QINDEX (R170). -/
def opqCtxLastStepQindex (i : Nat) : Fld := ⟨0x138 + 64 * i, 15, 0⟩
/-- STATUS.CMD_BUSY (R196). -/
def memStatusCmdBusy : Fld := ⟨0x010, 0, 0⟩
/-- STATUS.CMD_QUEUED (R196). -/
def memStatusCmdQueued : Fld := ⟨0x010, 5, 1⟩
/-- STATUS.MIG_QUEUED (R196). -/
def memStatusMigQueued : Fld := ⟨0x010, 14, 6⟩
/-- EVENT.CMD_DONE (R196). -/
def memEventCmdDone : Fld := ⟨0x018, 0, 0⟩
/-- EVENT.CMD_FAILED (R196). -/
def memEventCmdFailed : Fld := ⟨0x018, 1, 1⟩
/-- EVENT.PAGE_LOST (R196). -/
def memEventPageLost : Fld := ⟨0x018, 2, 2⟩
/-- EVENT.TIER_FULL (R196). -/
def memEventTierFull : Fld := ⟨0x018, 3, 3⟩
/-- EVENT.STALL (R196). -/
def memEventStall : Fld := ⟨0x018, 4, 4⟩
/-- CMD_ARG.ARG (R197). -/
def memCmdArgArg (i : Nat) : Fld := ⟨0x100 + 4 * i, 31, 0⟩
/-- CMD_OP.OP (R197). -/
def memCmdOpOp : Fld := ⟨0x110, 3, 0⟩
/-- CMD_STATUS.OP (R197). -/
def memCmdStatusOp : Fld := ⟨0x114, 3, 0⟩
/-- CMD_STATUS.CAUSE (R197). -/
def memCmdStatusCause : Fld := ⟨0x114, 31, 16⟩
/-- CMD_TAG.TAG (R197). -/
def memCmdTagTag : Fld := ⟨0x118, 31, 0⟩
/-- RACK_ID.INDEX (R197). -/
def memRackIdIndex : Fld := ⟨0x120, 11, 0⟩
/-- LIVE_CHANNELS.L (R197). -/
def memLiveChannelsL : Fld := ⟨0x124, 11, 0⟩
/-- FRAMES_T0_FREE.FRAMES (R197). -/
def memFramesT0FreeFrames : Fld := ⟨0x128, 14, 0⟩
/-- FRAMES_T1_FREE.FRAMES (R197). -/
def memFramesT1FreeFrames : Fld := ⟨0x12C, 20, 0⟩
/-- POUNCE_CFG.WS_UNITS (R197). -/
def memPounceCfgWsUnits : Fld := ⟨0x130, 7, 0⟩
/-- POUNCE_CFG.SLC_UNITS (R197). -/
def memPounceCfgSlcUnits : Fld := ⟨0x130, 15, 8⟩
/-- POUNCE_CFG.DRM_UNITS (R197). -/
def memPounceCfgDrmUnits : Fld := ⟨0x130, 23, 16⟩
/-- QUERY_PAGE.PAGE (R197). -/
def memQueryPagePage : Fld := ⟨0x140, 22, 0⟩
/-- QUERY_ENTRY.ENTRY (R197). -/
def memQueryEntryEntry (i : Nat) : Fld := ⟨0x144 + 4 * i, 31, 0⟩
/-- FIT_CTX.CTX (R197). -/
def memFitCtxCtx : Fld := ⟨0x160, 7, 0⟩
/-- FIT_T0_PAGES.PAGES (R197). -/
def memFitT0PagesPages : Fld := ⟨0x164, 22, 0⟩
/-- FIT_T1_PAGES.PAGES (R197). -/
def memFitT1PagesPages : Fld := ⟨0x168, 22, 0⟩
/-- FIT_T1_PASS.CYCLES (R197). -/
def memFitT1PassCycles : Fld := ⟨0x16C, 31, 0⟩
/-- FIT_T0_EQUIV.CYCLES (R197). -/
def memFitT0EquivCycles : Fld := ⟨0x170, 31, 0⟩
/-- STALL_LAST.CAUSE (R197). -/
def memStallLastCause : Fld := ⟨0x178, 2, 0⟩
/-- STALL_LAST.PARTITION (R197). -/
def memStallLastPartition : Fld := ⟨0x178, 11, 8⟩
/-- STATUS.SPARE_ROWS_USED (R199). -/
def slcStatusSpareRowsUsed : Fld := ⟨0x010, 9, 0⟩
/-- EVENT.CE (R199). -/
def slcEventCe : Fld := ⟨0x018, 0, 0⟩
/-- EVENT.UE (R199). -/
def slcEventUe : Fld := ⟨0x018, 1, 1⟩
/-- EVENT.HOT (R199). -/
def slcEventHot : Fld := ⟨0x018, 2, 2⟩
/-- HOT_CFG.DEPTH (R199). -/
def slcHotCfgDepth : Fld := ⟨0x100, 9, 0⟩
/-- HOT_CFG.CYCLES (R199). -/
def slcHotCfgCycles : Fld := ⟨0x100, 31, 16⟩
/-- HOT_LAST.SLICE (R199). -/
def slcHotLastSlice : Fld := ⟨0x104, 4, 0⟩
/-- STATUS.LIVE (R200). -/
def drmStatusLive : Fld := ⟨0x010, 5, 0⟩
/-- EVENT.CE (R200). -/
def drmEventCe : Fld := ⟨0x018, 0, 0⟩
/-- EVENT.UE (R200). -/
def drmEventUe : Fld := ⟨0x018, 1, 1⟩
/-- EVENT.CHANNEL_DOWN (R200). -/
def drmEventChannelDown : Fld := ⟨0x018, 2, 2⟩
/-- CHAN_LIVE.MASK (R200). -/
def drmChanLiveMask : Fld := ⟨0x100, 31, 0⟩
/-- CHAN_DOWN.MASK (R200). -/
def drmChanDownMask : Fld := ⟨0x104, 31, 0⟩
/-- STATUS.WRITE_ALLOWED (R201). -/
def shfStatusWriteAllowed : Fld := ⟨0x010, 0, 0⟩
/-- STATUS.LOADING (R201). -/
def shfStatusLoading : Fld := ⟨0x010, 1, 1⟩
/-- EVENT.HOOD_INVALID (R201). -/
def shfEventHoodInvalid : Fld := ⟨0x018, 0, 0⟩
/-- EVENT.SHELF_REFUSED (R201). -/
def shfEventShelfRefused : Fld := ⟨0x018, 1, 1⟩
/-- EVENT.CE (R201). -/
def shfEventCe : Fld := ⟨0x018, 2, 2⟩
/-- EVENT.BLOCK_RETIRED (R201). -/
def shfEventBlockRetired : Fld := ⟨0x018, 3, 3⟩
/-- EVENT.SPARE_LOW (R201). -/
def shfEventSpareLow : Fld := ⟨0x018, 4, 4⟩
/-- HOODS.COUNT (R201). -/
def shfHoodsCount : Fld := ⟨0x100, 15, 0⟩
/-- FREE_PAGES.PAGES (R201). -/
def shfFreePagesPages : Fld := ⟨0x104, 23, 0⟩
/-- WEAR.PERCENT (R201). -/
def shfWearPercent : Fld := ⟨0x108, 7, 0⟩
/-- STATUS.NORTH_ON (R224). -/
def fabSpineStatusNorthOn : Fld := ⟨0x010, 0, 0⟩
/-- STATUS.SOUTH_ON (R224). -/
def fabSpineStatusSouthOn : Fld := ⟨0x010, 1, 1⟩
/-- STATUS.SEAM_DEGRADED (R224). -/
def fabSpineStatusSeamDegraded : Fld := ⟨0x010, 2, 2⟩
/-- EVENT.LAT_BOUND (R224). -/
def fabSpineEventLatBound : Fld := ⟨0x018, 0, 0⟩
/-- EVENT.LINK_HOT (R224). -/
def fabSpineEventLinkHot : Fld := ⟨0x018, 1, 1⟩
/-- EVENT.TAG_ORPHAN (R224). -/
def fabSpineEventTagOrphan : Fld := ⟨0x018, 2, 2⟩
/-- EVENT.LINK_FAULT (R224). -/
def fabSpineEventLinkFault : Fld := ⟨0x018, 3, 3⟩
/-- SPLIT.READ (R225). -/
def fabSpineSplitRead : Fld := ⟨0x100, 4, 0⟩
/-- SPLIT.WRITE (R225). -/
def fabSpineSplitWrite : Fld := ⟨0x100, 12, 8⟩
/-- SPLIT.REMOTE (R225). -/
def fabSpineSplitRemote : Fld := ⟨0x100, 20, 16⟩
/-- PATTERN.SLOTS (R225). -/
def fabSpinePatternSlots : Fld := ⟨0x104, 31, 0⟩
/-- LAT_BOUND.CYCLES (R225). -/
def fabSpineLatBoundCycles : Fld := ⟨0x108, 15, 0⟩
/-- HOT_CFG.DEPTH (R225). -/
def fabSpineHotCfgDepth : Fld := ⟨0x10C, 9, 0⟩
/-- HOT_CFG.CYCLES (R225). -/
def fabSpineHotCfgCycles : Fld := ⟨0x10C, 31, 16⟩
/-- HOT_LINK.SWITCH (R225). -/
def fabSpineHotLinkSwitch : Fld := ⟨0x110, 4, 0⟩
/-- HOT_LINK.PORT (R225). -/
def fabSpineHotLinkPort : Fld := ⟨0x110, 12, 8⟩
/-- STATUS.LOST_EW (R227). -/
def fabTileStatusLostEw : Fld := ⟨0x010, 11, 0⟩
/-- STATUS.LOST_WE (R227). -/
def fabTileStatusLostWe : Fld := ⟨0x010, 23, 12⟩
/-- STATUS.SEAM_DEGRADED (R227). -/
def fabTileStatusSeamDegraded : Fld := ⟨0x010, 24, 24⟩
/-- EVENT.SEAM_RETRY (R227). -/
def fabTileEventSeamRetry : Fld := ⟨0x018, 0, 0⟩
/-- EVENT.SEAM_WIRE_BAD (R227). -/
def fabTileEventSeamWireBad : Fld := ⟨0x018, 1, 1⟩
/-- SPARES_USED.WIRES (R227). -/
def fabTileSparesUsedWires : Fld := ⟨0x100, 14, 0⟩
/-- STATUS.ARMED (R252). -/
def crdGlobalStatusArmed : Fld := ⟨0x010, 15, 0⟩
/-- STATUS.HELD (R252). -/
def crdGlobalStatusHeld : Fld := ⟨0x010, 31, 16⟩
/-- EVENT.DEADLINE (R252). -/
def crdGlobalEventDeadline : Fld := ⟨0x018, 0, 0⟩
/-- EVENT.PLAN_REFUSED (R252). -/
def crdGlobalEventPlanRefused : Fld := ⟨0x018, 1, 1⟩
/-- EVENT.PLAN_INVALID (R252). -/
def crdGlobalEventPlanInvalid : Fld := ⟨0x018, 2, 2⟩
/-- EVENT.LEVEL (R252). -/
def crdGlobalEventLevel : Fld := ⟨0x018, 3, 3⟩
/-- EVENT.NAK (R252). -/
def crdGlobalEventNak : Fld := ⟨0x018, 4, 4⟩
/-- PLAN_BASE_LO.ADDR (R253). -/
def crdGlobalPlanBaseLoAddr (i : Nat) : Fld := ⟨0x100 + 16 * i, 31, 6⟩
/-- PLAN_BASE_HI.ADDR (R253). -/
def crdGlobalPlanBaseHiAddr (i : Nat) : Fld := ⟨0x104 + 16 * i, 19, 0⟩
/-- PLAN_CMD.ARM (R253). -/
def crdGlobalPlanCmdArm (i : Nat) : Fld := ⟨0x108 + 16 * i, 0, 0⟩
/-- PLAN_CMD.ARM_NEXT (R253). -/
def crdGlobalPlanCmdArmNext (i : Nat) : Fld := ⟨0x108 + 16 * i, 1, 1⟩
/-- PLAN_CMD.DISARM (R253). -/
def crdGlobalPlanCmdDisarm (i : Nat) : Fld := ⟨0x108 + 16 * i, 2, 2⟩
/-- PLAN_CMD.RETRY (R253). -/
def crdGlobalPlanCmdRetry (i : Nat) : Fld := ⟨0x108 + 16 * i, 3, 3⟩
/-- PLAN_STATE.FILL_LAYER (R253). -/
def crdGlobalPlanStateFillLayer (i : Nat) : Fld := ⟨0x10C + 16 * i, 15, 0⟩
/-- PLAN_STATE.CUR_VALID (R253). -/
def crdGlobalPlanStateCurValid (i : Nat) : Fld := ⟨0x10C + 16 * i, 16, 16⟩
/-- PLAN_STATE.NEXT_VALID (R253). -/
def crdGlobalPlanStateNextValid (i : Nat) : Fld := ⟨0x10C + 16 * i, 17, 17⟩
/-- DEFAULTS.DEADLINE (R253). -/
def crdGlobalDefaultsDeadline : Fld := ⟨0x200, 7, 0⟩
/-- DEFAULTS.MISS_TICKS (R253). -/
def crdGlobalDefaultsMissTicks : Fld := ⟨0x200, 15, 8⟩
/-- DEFAULTS.RETRY_MAX (R253). -/
def crdGlobalDefaultsRetryMax : Fld := ⟨0x200, 23, 16⟩
/-- LAST_FAIL_ID.BATT_ID (R253). -/
def crdGlobalLastFailIdBattId : Fld := ⟨0x208, 31, 0⟩
/-- LAST_FAIL.LAYER (R253). -/
def crdGlobalLastFailLayer : Fld := ⟨0x20C, 15, 0⟩
/-- LAST_FAIL.PARTITION (R253). -/
def crdGlobalLastFailPartition : Fld := ⟨0x20C, 19, 16⟩
/-- LAST_FAIL.CAUSE (R253). -/
def crdGlobalLastFailCause : Fld := ⟨0x20C, 22, 20⟩
/-- STATUS.BUSY (R255). -/
def crdTileStatusBusy : Fld := ⟨0x010, 0, 0⟩
/-- STATUS.IN_PROGRESS (R255). -/
def crdTileStatusInProgress : Fld := ⟨0x010, 8, 1⟩
/-- EVENT.CRC_FAIL (R255). -/
def crdTileEventCrcFail : Fld := ⟨0x018, 0, 0⟩
/-- EVENT.MALFORMED (R255). -/
def crdTileEventMalformed : Fld := ⟨0x018, 1, 1⟩
/-- EVENT.FORMAT (R255). -/
def crdTileEventFormat : Fld := ⟨0x018, 2, 2⟩
/-- EVENT.BACKLOG (R255). -/
def crdTileEventBacklog : Fld := ⟨0x018, 3, 3⟩
/-- STATUS.OPEN (R278). -/
def fulStatusOpen : Fld := ⟨0x010, 15, 0⟩
/-- STATUS.QUAD_ON (R278). -/
def fulStatusQuadOn : Fld := ⟨0x010, 16, 16⟩
/-- STATUS.OUTPUTS_HELD (R278). -/
def fulStatusOutputsHeld : Fld := ⟨0x010, 17, 17⟩
/-- EVENT.MISSING (R278). -/
def fulEventMissing : Fld := ⟨0x018, 0, 0⟩
/-- EVENT.ACC_SAT (R278). -/
def fulEventAccSat : Fld := ⟨0x018, 1, 1⟩
/-- EVENT.MALFORMED (R278). -/
def fulEventMalformed : Fld := ⟨0x018, 2, 2⟩
/-- EVENT.BACKLOG (R278). -/
def fulEventBacklog : Fld := ⟨0x018, 3, 3⟩
/-- EVENT.AUDIT_MISMATCH (R278). -/
def fulEventAuditMismatch : Fld := ⟨0x018, 4, 4⟩
/-- TREE_CFG.ENABLE (R279). -/
def fulTreeCfgEnable (i : Nat) : Fld := ⟨0x100 + 64 * i, 0, 0⟩
/-- TREE_CFG.KIND (R279). -/
def fulTreeCfgKind (i : Nat) : Fld := ⟨0x100 + 64 * i, 1, 1⟩
/-- TREE_CFG.ROOT (R279). -/
def fulTreeCfgRoot (i : Nat) : Fld := ⟨0x100 + 64 * i, 2, 2⟩
/-- TREE_CFG.LOCAL (R279). -/
def fulTreeCfgLocal (i : Nat) : Fld := ⟨0x100 + 64 * i, 3, 3⟩
/-- TREE_CFG.CHILDREN (R279). -/
def fulTreeCfgChildren (i : Nat) : Fld := ⟨0x100 + 64 * i, 7, 4⟩
/-- TREE_CFG.DEADLINE (R279). -/
def fulTreeCfgDeadline (i : Nat) : Fld := ⟨0x100 + 64 * i, 15, 8⟩
/-- TREE_CFG.SPARSE_EN (R279). -/
def fulTreeCfgSparseEn (i : Nat) : Fld := ⟨0x100 + 64 * i, 16, 16⟩
/-- TREE_PARENT.RACK (R279). -/
def fulTreeParentRack (i : Nat) : Fld := ⟨0x104 + 64 * i, 11, 0⟩
/-- TREE_PARENT.GROUP (R279). -/
def fulTreeParentGroup (i : Nat) : Fld := ⟨0x104 + 64 * i, 19, 16⟩
/-- TREE_WINDOW.SEGMENTS (R279). -/
def fulTreeWindowSegments (i : Nat) : Fld := ⟨0x108 + 64 * i, 14, 0⟩
/-- TREE_STATE.OPEN (R279). -/
def fulTreeStateOpen (i : Nat) : Fld := ⟨0x10C + 64 * i, 0, 0⟩
/-- TREE_STATE.ATTEMPT (R279). -/
def fulTreeStateAttempt (i : Nat) : Fld := ⟨0x10C + 64 * i, 15, 8⟩
/-- TREE_CHILDi.RACK_A of slot s (R279). -/
def fulTreeChildRackA (s i : Nat) : Fld := ⟨0x110 + 64 * s + 4 * i, 11, 0⟩
/-- TREE_CHILDi.GROUP_A of slot s (R279). -/
def fulTreeChildGroupA (s i : Nat) : Fld := ⟨0x110 + 64 * s + 4 * i, 15, 12⟩
/-- TREE_CHILDi.RACK_B of slot s (R279). -/
def fulTreeChildRackB (s i : Nat) : Fld := ⟨0x110 + 64 * s + 4 * i, 27, 16⟩
/-- TREE_CHILDi.GROUP_B of slot s (R279). -/
def fulTreeChildGroupB (s i : Nat) : Fld := ⟨0x110 + 64 * s + 4 * i, 31, 28⟩
/-- TREE_STEP.STEP (R279). -/
def fulTreeStepStep (i : Nat) : Fld := ⟨0x130 + 64 * i, 31, 0⟩
/-- TREE_LOWEST.SEGMENT (R279). -/
def fulTreeLowestSegment (i : Nat) : Fld := ⟨0x134 + 64 * i, 31, 0⟩
/-- TREE_MISSING.MASK (R279). -/
def fulTreeMissingMask (i : Nat) : Fld := ⟨0x138 + 64 * i, 15, 0⟩
/-- STATUS.QUAD_ON (R314). -/
def hbGlobalStatusQuadOn : Fld := ⟨0x010, 3, 0⟩
/-- STATUS.GROUP_UP (R314). -/
def hbGlobalStatusGroupUp : Fld := ⟨0x010, 15, 4⟩
/-- EVENT.ENGINE_DOWN (R314). -/
def hbGlobalEventEngineDown : Fld := ⟨0x018, 0, 0⟩
/-- GROUP_CFG.ROLE (R315). -/
def hbGlobalGroupCfgRole (i : Nat) : Fld := ⟨0x100 + 4 * i, 1, 0⟩
/-- GROUP_CFG.SERVER_GROUP (R315). -/
def hbGlobalGroupCfgServerGroup (i : Nat) : Fld := ⟨0x100 + 4 * i, 7, 4⟩
/-- GROUP_CFG.PEER_RACK (R315). -/
def hbGlobalGroupCfgPeerRack (i : Nat) : Fld := ⟨0x100 + 4 * i, 19, 8⟩
/-- GROUP_CFG.PEER_GROUP (R315). -/
def hbGlobalGroupCfgPeerGroup (i : Nat) : Fld := ⟨0x100 + 4 * i, 23, 20⟩
/-- USABLE_LO.ENGINES (R315). -/
def hbGlobalUsableLoEngines : Fld := ⟨0x140, 31, 0⟩
/-- USABLE_HI.ENGINES (R315). -/
def hbGlobalUsableHiEngines : Fld := ⟨0x144, 15, 0⟩
/-- STATUS.ENG_STATE (R316). -/
def hbStatusEngState : Fld := ⟨0x010, 2, 0⟩
/-- STATUS.USABLE (R316). -/
def hbStatusUsable : Fld := ⟨0x010, 3, 3⟩
/-- STATUS.LIGHT_OK (R316). -/
def hbStatusLightOk : Fld := ⟨0x010, 4, 4⟩
/-- STATUS.SPARES_TX (R316). -/
def hbStatusSparesTx : Fld := ⟨0x010, 6, 5⟩
/-- STATUS.SPARES_RX (R316). -/
def hbStatusSparesRx : Fld := ⟨0x010, 8, 7⟩
/-- STATUS.RATE_HALF (R316). -/
def hbStatusRateHalf : Fld := ⟨0x010, 9, 9⟩
/-- CONTROL.LOOPBACK (R316). -/
def hbControlLoopback : Fld := ⟨0x014, 1, 0⟩
/-- CONTROL.FAR_LOOP (R316). -/
def hbControlFarLoop : Fld := ⟨0x014, 2, 2⟩
/-- EVENT.REPLAY (R316). -/
def hbEventReplay : Fld := ⟨0x018, 0, 0⟩
/-- EVENT.RETRAIN (R316). -/
def hbEventRetrain : Fld := ⟨0x018, 1, 1⟩
/-- EVENT.RETRAIN_FAIL (R316). -/
def hbEventRetrainFail : Fld := ⟨0x018, 2, 2⟩
/-- EVENT.DOWN (R316). -/
def hbEventDown : Fld := ⟨0x018, 3, 3⟩
/-- EVENT.LIGHT_LOSS (R316). -/
def hbEventLightLoss : Fld := ⟨0x018, 4, 4⟩
/-- EVENT.RING_UNLOCK (R316). -/
def hbEventRingUnlock : Fld := ⟨0x018, 5, 5⟩
/-- TX_ACTIVE.LANES (R317). -/
def hbTxActiveLanes : Fld := ⟨0x100, 17, 0⟩
/-- RX_ACTIVE.LANES (R317). -/
def hbRxActiveLanes : Fld := ⟨0x104, 17, 0⟩
/-- TX_BAD.LANES (R317). -/
def hbTxBadLanes : Fld := ⟨0x108, 17, 0⟩
/-- RX_BAD.LANES (R317). -/
def hbRxBadLanes : Fld := ⟨0x10C, 17, 0⟩
/-- LAST_RETRAIN.LANE (R317). -/
def hbLastRetrainLane : Fld := ⟨0x110, 4, 0⟩
/-- LAST_RETRAIN.DIR (R317). -/
def hbLastRetrainDir : Fld := ⟨0x110, 8, 8⟩
/-- LAST_RETRAIN.RESULT (R317). -/
def hbLastRetrainResult : Fld := ⟨0x110, 10, 9⟩
/-- STATUS.SESSION (R319). -/
def nolStatusSession : Fld := ⟨0x010, 2, 0⟩
/-- STATUS.LEVEL (R319). -/
def nolStatusLevel : Fld := ⟨0x010, 15, 8⟩
/-- STATUS.ENGINES_UP (R319). -/
def nolStatusEnginesUp : Fld := ⟨0x010, 18, 16⟩
/-- CONTROL.REOFFER (R319). -/
def nolControlReoffer : Fld := ⟨0x014, 0, 0⟩
/-- EVENT.REFUSED (R319). -/
def nolEventRefused : Fld := ⟨0x018, 0, 0⟩
/-- EVENT.SESSION_CHANGED (R319). -/
def nolEventSessionChanged : Fld := ⟨0x018, 1, 1⟩
/-- EVENT.GROUP_DOWN (R319). -/
def nolEventGroupDown : Fld := ⟨0x018, 2, 2⟩
/-- EVENT.PEER_REFUSED (R319). -/
def nolEventPeerRefused : Fld := ⟨0x018, 3, 3⟩
/-- LOCAL_FEATURES.FEATURES (R320). -/
def nolLocalFeaturesFeatures : Fld := ⟨0x100, 31, 0⟩
/-- PEER_LEVELS.LOWEST (R320). -/
def nolPeerLevelsLowest : Fld := ⟨0x104, 7, 0⟩
/-- PEER_LEVELS.HIGHEST (R320). -/
def nolPeerLevelsHighest : Fld := ⟨0x104, 15, 8⟩
/-- PEER_FEATURES.FEATURES (R320). -/
def nolPeerFeaturesFeatures : Fld := ⟨0x108, 31, 0⟩
/-- SESSION_FEATURES.FEATURES (R320). -/
def nolSessionFeaturesFeatures : Fld := ⟨0x10C, 31, 0⟩
/-- PEER_ID.RACK (R320). -/
def nolPeerIdRack : Fld := ⟨0x110, 11, 0⟩
/-- PEER_ID.GROUP (R320). -/
def nolPeerIdGroup : Fld := ⟨0x110, 15, 12⟩
/-- PEER_ID.ROLE (R320). -/
def nolPeerIdRole : Fld := ⟨0x110, 17, 16⟩
/-- REFUSE_CAUSE.CAUSE (R320). -/
def nolRefuseCauseCause : Fld := ⟨0x114, 7, 0⟩
/-- STATUS.RUNNING (R345). -/
def tkStatusRunning : Fld := ⟨0x010, 0, 0⟩
/-- STATUS.HELD (R345). -/
def tkStatusHeld : Fld := ⟨0x010, 1, 1⟩
/-- STATUS.GROUP_LOCKED (R345). -/
def tkStatusGroupLocked : Fld := ⟨0x010, 2, 2⟩
/-- EVENT.OVERRUN (R345). -/
def tkEventOverrun : Fld := ⟨0x018, 0, 0⟩
/-- EVENT.SLOW (R345). -/
def tkEventSlow : Fld := ⟨0x018, 1, 1⟩
/-- EVENT.SLEW_LIMIT (R345). -/
def tkEventSlewLimit : Fld := ⟨0x018, 2, 2⟩
/-- PERIOD.CYCLES (R346). -/
def tkPeriodCycles : Fld := ⟨0x100, 17, 0⟩
/-- SLOW_CFG.THRESHOLD (R346). -/
def tkSlowCfgThreshold : Fld := ⟨0x104, 15, 0⟩
/-- SLOW_CFG.COUNT (R346). -/
def tkSlowCfgCount : Fld := ⟨0x104, 23, 16⟩
/-- ORIGIN_LO.GTC (R346). -/
def tkOriginLoGtc : Fld := ⟨0x108, 31, 0⟩
/-- ORIGIN_HI.GTC (R346). -/
def tkOriginHiGtc : Fld := ⟨0x10C, 31, 0⟩
/-- GTC_LO.GTC (R346). -/
def tkGtcLoGtc : Fld := ⟨0x110, 31, 0⟩
/-- GTC_HI.GTC (R346). -/
def tkGtcHiGtc : Fld := ⟨0x114, 31, 0⟩
/-- TICK_LO.TICK (R346). -/
def tkTickLoTick : Fld := ⟨0x118, 31, 0⟩
/-- TICK_HI.TICK (R346). -/
def tkTickHiTick : Fld := ⟨0x11C, 31, 0⟩
/-- SLOW_CORES_LO.CORES (R346). -/
def tkSlowCoresLoCores : Fld := ⟨0x120, 31, 0⟩
/-- SLOW_CORES_MID.CORES (R346). -/
def tkSlowCoresMidCores : Fld := ⟨0x124, 31, 0⟩
/-- SLOW_CORES_HI.CORES (R346). -/
def tkSlowCoresHiCores : Fld := ⟨0x128, 31, 0⟩
/-- STATUS.ROLE (R348). -/
def roleStatusRole : Fld := ⟨0x010, 1, 0⟩
/-- STATUS.HANDOVER (R348). -/
def roleStatusHandover : Fld := ⟨0x010, 2, 2⟩
/-- STATUS.IS_DEPUTY (R348). -/
def roleStatusIsDeputy : Fld := ⟨0x010, 3, 3⟩
/-- EVENT.ROLE_CHANGED (R348). -/
def roleEventRoleChanged : Fld := ⟨0x018, 0, 0⟩
/-- EVENT.ROLE_CONFLICT (R348). -/
def roleEventRoleConflict : Fld := ⟨0x018, 1, 1⟩
/-- EVENT.CROWN_LOST (R348). -/
def roleEventCrownLost : Fld := ⟨0x018, 2, 2⟩
/-- EVENT.ABORT (R348). -/
def roleEventAbort : Fld := ⟨0x018, 3, 3⟩
/-- GROUP_CFG.GROUP_ID (R349). -/
def roleGroupCfgGroupId : Fld := ⟨0x100, 7, 0⟩
/-- GROUP_CFG.SIZE (R349). -/
def roleGroupCfgSize : Fld := ⟨0x100, 16, 8⟩
/-- RANK.JOB_RANK (R349). -/
def roleRankJobRank : Fld := ⟨0x104, 15, 0⟩
/-- RANK.JOB_SIZE_M1 (R349). -/
def roleRankJobSizeM1 : Fld := ⟨0x104, 31, 16⟩
/-- CROWN.INITIAL (R349). -/
def roleCrownInitial : Fld := ⟨0x108, 11, 0⟩
/-- CROWN.CURRENT (R349). -/
def roleCrownCurrent : Fld := ⟨0x108, 27, 16⟩
/-- DEPUTY.RACK (R349). -/
def roleDeputyRack : Fld := ⟨0x10C, 11, 0⟩
/-- DEPUTY.LOSS_TICKS (R349). -/
def roleDeputyLossTicks : Fld := ⟨0x10C, 23, 16⟩
/-- CROWN_CFG.BATT_ABORT (R349). -/
def roleCrownCfgBattAbort : Fld := ⟨0x110, 0, 0⟩
/-- CROWN_CFG.AUTO_EXCLUDE (R349). -/
def roleCrownCfgAutoExclude : Fld := ⟨0x110, 1, 1⟩
/-- CMD.SWAP_REQ (R349). -/
def roleCmdSwapReq : Fld := ⟨0x114, 0, 0⟩
/-- CMD.TARGET (R349). -/
def roleCmdTarget : Fld := ⟨0x114, 27, 16⟩
/-- SWAP_STATE.STATE (R349). -/
def roleSwapStateState : Fld := ⟨0x118, 2, 0⟩
/-- SWAP_STATE.CAUSE (R349). -/
def roleSwapStateCause : Fld := ⟨0x118, 15, 8⟩
/-- LAST_ABORT_STEP.STEP (R349). -/
def roleLastAbortStepStep : Fld := ⟨0x11C, 31, 0⟩
/-- LAST_ABORT.ATTEMPT (R349). -/
def roleLastAbortAttempt : Fld := ⟨0x120, 7, 0⟩
/-- LAST_ABORT.REASON (R349). -/
def roleLastAbortReason : Fld := ⟨0x120, 10, 8⟩
/-- STATUS.MESH_LOCKED (R363). -/
def clkStatusMeshLocked : Fld := ⟨0x010, 0, 0⟩
/-- STATUS.STEPPING (R363). -/
def clkStatusStepping : Fld := ⟨0x010, 1, 1⟩
/-- EVENT.LOCK_LOST (R363). -/
def clkEventLockLost : Fld := ⟨0x018, 0, 0⟩
/-- EVENT.PHASE_LIMIT (R363). -/
def clkEventPhaseLimit : Fld := ⟨0x018, 1, 1⟩
/-- EVENT.CDC_TIMEOUT (R363). -/
def clkEventCdcTimeout : Fld := ⟨0x018, 2, 2⟩
/-- EVENT.FIFO_OVERRUN (R363). -/
def clkEventFifoOverrun : Fld := ⟨0x018, 3, 3⟩
/-- EVENT.RESET_FLUSH (R363). -/
def clkEventResetFlush : Fld := ⟨0x018, 4, 4⟩
/-- PROFILE.MULT (R364). -/
def clkProfileMult : Fld := ⟨0x100, 5, 0⟩
/-- MCLK_STATE.CURRENT (R364). -/
def clkMclkStateCurrent : Fld := ⟨0x104, 5, 0⟩
/-- MCLK_STATE.FUSED_MAX (R364). -/
def clkMclkStateFusedMax : Fld := ⟨0x104, 13, 8⟩
/-- PHASE_MAX.PS (R364). -/
def clkPhaseMaxPs : Fld := ⟨0x108, 7, 0⟩
/-- LOCK_TIME.US (R364). -/
def clkLockTimeUs : Fld := ⟨0x10C, 16, 0⟩
/-- OSC_LOCKED_LO.OSC (R364). -/
def clkOscLockedLoOsc : Fld := ⟨0x110, 31, 0⟩
/-- OSC_LOCKED_HI.OSC (R364). -/
def clkOscLockedHiOsc : Fld := ⟨0x114, 15, 0⟩
/-- LAST_FAULT.KIND (R364). -/
def clkLastFaultKind : Fld := ⟨0x118, 2, 0⟩
/-- LAST_FAULT.INSTANCE (R364). -/
def clkLastFaultInstance : Fld := ⟨0x118, 15, 8⟩
/-- LAST_FAULT.CAUSE (R364). -/
def clkLastFaultCause : Fld := ⟨0x118, 17, 16⟩
/-- STATUS.INPUT_OK (R386). -/
def pwrGlobalStatusInputOk : Fld := ⟨0x010, 0, 0⟩
/-- STATUS.RIDE_THROUGH (R386). -/
def pwrGlobalStatusRideThrough : Fld := ⟨0x010, 1, 1⟩
/-- STATUS.FLUSHING (R386). -/
def pwrGlobalStatusFlushing : Fld := ⟨0x010, 2, 2⟩
/-- STATUS.HOLDUP_READY (R386). -/
def pwrGlobalStatusHoldupReady : Fld := ⟨0x010, 3, 3⟩
/-- STATUS.HOLDUP_GAUGE_MISMATCH (R386). -/
def pwrGlobalStatusHoldupGaugeMismatch : Fld := ⟨0x010, 4, 4⟩
/-- STATUS.CAP_LIMITING (R386). -/
def pwrGlobalStatusCapLimiting : Fld := ⟨0x010, 5, 5⟩
/-- STATUS.CAP_UNMET (R386). -/
def pwrGlobalStatusCapUnmet : Fld := ⟨0x010, 6, 6⟩
/-- STATUS.INPUT_LOW (R386). -/
def pwrGlobalStatusInputLow : Fld := ⟨0x010, 7, 7⟩
/-- STATUS.LAST_OFF (R386). -/
def pwrGlobalStatusLastOff : Fld := ⟨0x010, 9, 8⟩
/-- EVENT.INPUT_DIP (R386). -/
def pwrGlobalEventInputDip : Fld := ⟨0x018, 0, 0⟩
/-- EVENT.INPUT_LOSS (R386). -/
def pwrGlobalEventInputLoss : Fld := ⟨0x018, 1, 1⟩
/-- EVENT.GAUGE_MISMATCH (R386). -/
def pwrGlobalEventGaugeMismatch : Fld := ⟨0x018, 2, 2⟩
/-- EVENT.CAP_UNMET (R386). -/
def pwrGlobalEventCapUnmet : Fld := ⟨0x018, 3, 3⟩
/-- EVENT.CAP_CHANGED (R386). -/
def pwrGlobalEventCapChanged : Fld := ⟨0x018, 4, 4⟩
/-- EVENT.INPUT_LOW (R386). -/
def pwrGlobalEventInputLow : Fld := ⟨0x018, 5, 5⟩
/-- CAP_LOCAL.W10 (R387). -/
def pwrGlobalCapLocalW10 : Fld := ⟨0x100, 15, 0⟩
/-- CAP_MGMT.W10 (R387). -/
def pwrGlobalCapMgmtW10 : Fld := ⟨0x104, 15, 0⟩
/-- CAP_PMBUS.W10 (R387). -/
def pwrGlobalCapPmbusW10 : Fld := ⟨0x108, 15, 0⟩
/-- CAP_EFFECTIVE.W10 (R387). -/
def pwrGlobalCapEffectiveW10 : Fld := ⟨0x10C, 15, 0⟩
/-- CAP_EFFECTIVE.SOURCE (R387). -/
def pwrGlobalCapEffectiveSource : Fld := ⟨0x10C, 18, 16⟩
/-- OPERATING.DUTY (R387). -/
def pwrGlobalOperatingDuty : Fld := ⟨0x110, 4, 0⟩
/-- INPUT.POWER_W10 (R387). -/
def pwrGlobalInputPowerW10 : Fld := ⟨0x114, 15, 0⟩
/-- INPUT.VIN_10MV (R387). -/
def pwrGlobalInputVin10mv : Fld := ⟨0x114, 31, 16⟩
/-- HOLDUP_CFG.RIDE_MS (R387). -/
def pwrGlobalHoldupCfgRideMs : Fld := ⟨0x118, 3, 0⟩
/-- HOLDUP_CFG.RESERVE (R387). -/
def pwrGlobalHoldupCfgReserve : Fld := ⟨0x118, 15, 8⟩
/-- HOLDUP_GAUGE.E_VOLT (R387). -/
def pwrGlobalHoldupGaugeEVolt : Fld := ⟨0x11C, 9, 0⟩
/-- HOLDUP_GAUGE.E_COUL (R387). -/
def pwrGlobalHoldupGaugeECoul : Fld := ⟨0x11C, 25, 16⟩
/-- HOLDUP_STATE.VBANK_10MV (R387). -/
def pwrGlobalHoldupStateVbank10mv : Fld := ⟨0x120, 12, 0⟩
/-- HOLDUP_STATE.CAP_MF (R387). -/
def pwrGlobalHoldupStateCapMf : Fld := ⟨0x120, 27, 16⟩
/-- STATUS.CORE_OPEN (R388). -/
def pwrTileStatusCoreOpen : Fld := ⟨0x010, 4, 0⟩
/-- STATUS.ESTIMATED (R388). -/
def pwrTileStatusEstimated : Fld := ⟨0x010, 5, 5⟩
/-- STATUS.LIMIT (R388). -/
def pwrTileStatusLimit : Fld := ⟨0x010, 7, 6⟩
/-- STATUS.DOMAINS_ON (R388). -/
def pwrTileStatusDomainsOn : Fld := ⟨0x010, 12, 8⟩
/-- STATUS.DUTY (R388). -/
def pwrTileStatusDuty : Fld := ⟨0x010, 20, 16⟩
/-- EVENT.OPEN_PHASE (R388). -/
def pwrTileEventOpenPhase : Fld := ⟨0x018, 0, 0⟩
/-- EVENT.SENSE_FAIL (R388). -/
def pwrTileEventSenseFail : Fld := ⟨0x018, 1, 1⟩
/-- EVENT.LIMIT_SET (R388). -/
def pwrTileEventLimitSet : Fld := ⟨0x018, 2, 2⟩
/-- EVENT.TILE_OFF (R388). -/
def pwrTileEventTileOff : Fld := ⟨0x018, 3, 3⟩
/-- EVENT.OC_GATE (R388). -/
def pwrTileEventOcGate : Fld := ⟨0x018, 4, 4⟩
/-- EVENT.SWEAT_DROP (R388). -/
def pwrTileEventSweatDrop : Fld := ⟨0x018, 5, 5⟩
/-- PHASE.STATE (R389). -/
def pwrTilePhaseState (i : Nat) : Fld := ⟨0x100 + 4 * i, 1, 0⟩
/-- PHASE.CURRENT (R389). -/
def pwrTilePhaseCurrent (i : Nat) : Fld := ⟨0x100 + 4 * i, 15, 4⟩
/-- PHASE.DUTY (R389). -/
def pwrTilePhaseDuty (i : Nat) : Fld := ⟨0x100 + 4 * i, 25, 16⟩
/-- LIMIT_A.AMPS (R389). -/
def pwrTileLimitAAmps : Fld := ⟨0x180, 10, 0⟩
/-- SWEAT.DROP_MV (R389). -/
def pwrTileSweatDropMv : Fld := ⟨0x184, 7, 0⟩
/-- STATUS.INLET_HIGH (R390). -/
def thmStatusInletHigh : Fld := ⟨0x010, 0, 0⟩
/-- STATUS.FLOW_LOW (R390). -/
def thmStatusFlowLow : Fld := ⟨0x010, 1, 1⟩
/-- STATUS.WARN_ANY (R390). -/
def thmStatusWarnAny : Fld := ⟨0x010, 2, 2⟩
/-- STATUS.TRIPPED (R390). -/
def thmStatusTripped : Fld := ⟨0x010, 3, 3⟩
/-- EVENT.INLET_HIGH (R390). -/
def thmEventInletHigh : Fld := ⟨0x018, 0, 0⟩
/-- EVENT.FLOW_LOW (R390). -/
def thmEventFlowLow : Fld := ⟨0x018, 1, 1⟩
/-- EVENT.JUNCTION_WARN (R390). -/
def thmEventJunctionWarn : Fld := ⟨0x018, 2, 2⟩
/-- EVENT.TRIP (R390). -/
def thmEventTrip : Fld := ⟨0x018, 3, 3⟩
/-- EVENT.SENSOR_FAIL (R390). -/
def thmEventSensorFail : Fld := ⟨0x018, 4, 4⟩
/-- LIMITS.WARN_C (R390). -/
def thmLimitsWarnC : Fld := ⟨0x100, 7, 0⟩
/-- LIMITS.TRIP_C (R390). -/
def thmLimitsTripC : Fld := ⟨0x100, 15, 8⟩
/-- COOLANT.INLET (R390). -/
def thmCoolantInlet : Fld := ⟨0x104, 9, 0⟩
/-- COOLANT.OUTLET (R390). -/
def thmCoolantOutlet : Fld := ⟨0x104, 25, 16⟩
/-- FLOW.LPM (R390). -/
def thmFlowLpm : Fld := ⟨0x108, 9, 0⟩
/-- TILE.MAX_C (R390). -/
def thmTileMaxC (i : Nat) : Fld := ⟨0x110 + 4 * i, 7, 0⟩
/-- SPINE.NORTH_C (R390). -/
def thmSpineNorthC : Fld := ⟨0x170, 7, 0⟩
/-- SPINE.SOUTH_C (R390). -/
def thmSpineSouthC : Fld := ⟨0x170, 15, 8⟩
/-- QUAD.QUAD0_C (R390). -/
def thmQuadQuad0C : Fld := ⟨0x174, 7, 0⟩
/-- QUAD.QUAD1_C (R390). -/
def thmQuadQuad1C : Fld := ⟨0x174, 15, 8⟩
/-- QUAD.QUAD2_C (R390). -/
def thmQuadQuad2C : Fld := ⟨0x174, 23, 16⟩
/-- QUAD.QUAD3_C (R390). -/
def thmQuadQuad3C : Fld := ⟨0x174, 31, 24⟩
/-- STATUS.STATE (R422). -/
def bupStatusState : Fld := ⟨0x010, 3, 0⟩
/-- STATUS.STAGE (R422). -/
def bupStatusStage : Fld := ⟨0x010, 7, 4⟩
/-- STATUS.QUICK (R422). -/
def bupStatusQuick : Fld := ⟨0x010, 8, 8⟩
/-- STATUS.FULL_DUE (R422). -/
def bupStatusFullDue : Fld := ⟨0x010, 9, 9⟩
/-- STATUS.EXCLUDED (R422). -/
def bupStatusExcluded : Fld := ⟨0x010, 10, 10⟩
/-- STATUS.CFG_BANK (R422). -/
def bupStatusCfgBank : Fld := ⟨0x010, 11, 11⟩
/-- CONTROL.QUICK_REQ (R422). -/
def bupControlQuickReq : Fld := ⟨0x014, 0, 0⟩
/-- EVENT.STATE_CHANGED (R422). -/
def bupEventStateChanged : Fld := ⟨0x018, 0, 0⟩
/-- EVENT.HELD_ENTERED (R422). -/
def bupEventHeldEntered : Fld := ⟨0x018, 1, 1⟩
/-- EVENT.STAGE_TIMEOUT (R422). -/
def bupEventStageTimeout : Fld := ⟨0x018, 2, 2⟩
/-- EVENT.CFG_COMMITTED (R422). -/
def bupEventCfgCommitted : Fld := ⟨0x018, 3, 3⟩
/-- EVENT.CFG_REFUSED (R422). -/
def bupEventCfgRefused : Fld := ⟨0x018, 4, 4⟩
/-- EVENT.CMD_REFUSED (R422). -/
def bupEventCmdRefused : Fld := ⟨0x018, 5, 5⟩
/-- CMD.OP (R423). -/
def bupCmdOp : Fld := ⟨0x100, 3, 0⟩
/-- CMD.MASK (R423). -/
def bupCmdMask : Fld := ⟨0x100, 31, 16⟩
/-- CFG_DATA.DATA (R423). -/
def bupCfgDataData : Fld := ⟨0x104, 31, 0⟩
/-- CMD_STATUS.OP (R423). -/
def bupCmdStatusOp : Fld := ⟨0x108, 3, 0⟩
/-- CMD_STATUS.CAUSE (R423). -/
def bupCmdStatusCause : Fld := ⟨0x108, 15, 8⟩
/-- HELD_CAUSE.CAUSES (R423). -/
def bupHeldCauseCauses : Fld := ⟨0x10C, 10, 0⟩
/-- TOPO_MISMATCH.GROUPS (R423). -/
def bupTopoMismatchGroups : Fld := ⟨0x110, 11, 0⟩
/-- TOPO_MISMATCH.RACK (R423). -/
def bupTopoMismatchRack : Fld := ⟨0x110, 12, 12⟩
/-- TOPO_WAIT.SECONDS (R423). -/
def bupTopoWaitSeconds : Fld := ⟨0x114, 15, 0⟩
/-- CFG_STAGED.BYTES (R423). -/
def bupCfgStagedBytes : Fld := ⟨0x118, 20, 0⟩
/-- CFG_GEN.GENERATION (R423). -/
def bupCfgGenGeneration : Fld := ⟨0x11C, 31, 0⟩
/-- STAGE_MS.MS (R423). -/
def bupStageMsMs (i : Nat) : Fld := ⟨0x124 + 4 * i, 31, 0⟩
/-- QUICK_SINCE.COUNT (R423). -/
def bupQuickSinceCount : Fld := ⟨0x140, 15, 0⟩
/-- STATUS.VARIANT (R425). -/
def fusStatusVariant : Fld := ⟨0x010, 1, 0⟩
/-- STATUS.BELOW_FLOOR (R425). -/
def fusStatusBelowFloor : Fld := ⟨0x010, 2, 2⟩
/-- STATUS.LOG_INVALID (R425). -/
def fusStatusLogInvalid : Fld := ⟨0x010, 3, 3⟩
/-- STATUS.LOG_FULL (R425). -/
def fusStatusLogFull : Fld := ⟨0x010, 4, 4⟩
/-- EVENT.FIELD_ENTRY (R425). -/
def fusEventFieldEntry : Fld := ⟨0x018, 0, 0⟩
/-- EVENT.LOG_NEAR_FULL (R425). -/
def fusEventLogNearFull : Fld := ⟨0x018, 1, 1⟩
/-- EVENT.LOG_FULL (R425). -/
def fusEventLogFull : Fld := ⟨0x018, 2, 2⟩
/-- EVENT.LOG_SIG_FAIL (R425). -/
def fusEventLogSigFail : Fld := ⟨0x018, 3, 3⟩
/-- EVENT.MAP_CHANGED (R425). -/
def fusEventMapChanged : Fld := ⟨0x018, 4, 4⟩
/-- SERIAL_LO.SERIAL (R426). -/
def fusSerialLoSerial : Fld := ⟨0x100, 31, 0⟩
/-- SERIAL_HI.SERIAL (R426). -/
def fusSerialHiSerial : Fld := ⟨0x104, 31, 0⟩
/-- FUSED.MULT_MAX (R426). -/
def fusFusedMultMax : Fld := ⟨0x108, 5, 0⟩
/-- FUSED.CAP_W10 (R426). -/
def fusFusedCapW10 : Fld := ⟨0x108, 23, 8⟩
/-- FUSED.GROUPS (R426). -/
def fusFusedGroups : Fld := ⟨0x108, 27, 24⟩
/-- FUSED.LIC_ACCEPT (R426). -/
def fusFusedLicAccept : Fld := ⟨0x108, 28, 28⟩
/-- CORE_FLOOR.CORES (R426). -/
def fusCoreFloorCores : Fld := ⟨0x10C, 6, 0⟩
/-- CORES_LO.CORES (R426). -/
def fusCoresLoCores : Fld := ⟨0x110, 31, 0⟩
/-- CORES_MID.CORES (R426). -/
def fusCoresMidCores : Fld := ⟨0x114, 31, 0⟩
/-- CORES_HI.CORES (R426). -/
def fusCoresHiCores : Fld := ⟨0x118, 31, 0⟩
/-- COUNTS.ENABLED (R426). -/
def fusCountsEnabled : Fld := ⟨0x11C, 6, 0⟩
/-- COUNTS.FACTORY (R426). -/
def fusCountsFactory : Fld := ⟨0x11C, 28, 16⟩
/-- FIELD_ENTRIES.COUNT (R426). -/
def fusFieldEntriesCount : Fld := ⟨0x120, 16, 0⟩
/-- LIFE_BRINGUPS.COUNT (R426). -/
def fusLifeBringupsCount : Fld := ⟨0x124, 31, 0⟩
/-- MAP_ENTRIES.COUNT (R426). -/
def fusMapEntriesCount : Fld := ⟨0x128, 16, 0⟩
/-- MAP_INDEX.INDEX (R426). -/
def fusMapIndexIndex : Fld := ⟨0x12C, 16, 0⟩
/-- MAP_ENTRY.ENTRY (R426). -/
def fusMapEntryEntry (i : Nat) : Fld := ⟨0x130 + 4 * i, 31, 0⟩
/-- MAP_DIGEST_LO.DIGEST (R426). -/
def fusMapDigestLoDigest : Fld := ⟨0x140, 31, 0⟩
/-- MAP_DIGEST_HI.DIGEST (R426). -/
def fusMapDigestHiDigest : Fld := ⟨0x144, 31, 0⟩
/-- STATUS.OWNER (R449). -/
def telStatusOwner : Fld := ⟨0x010, 1, 0⟩
/-- STATUS.LINK_A_UP (R449). -/
def telStatusLinkAUp : Fld := ⟨0x010, 2, 2⟩
/-- STATUS.LINK_B_UP (R449). -/
def telStatusLinkBUp : Fld := ⟨0x010, 3, 3⟩
/-- STATUS.MGMT_UP (R449). -/
def telStatusMgmtUp : Fld := ⟨0x010, 4, 4⟩
/-- STATUS.RATE_A (R449). -/
def telStatusRateA : Fld := ⟨0x010, 7, 5⟩
/-- STATUS.RATE_B (R449). -/
def telStatusRateB : Fld := ⟨0x010, 10, 8⟩
/-- STATUS.WIDTH_A (R449). -/
def telStatusWidthA : Fld := ⟨0x010, 15, 11⟩
/-- STATUS.WIDTH_B (R449). -/
def telStatusWidthB : Fld := ⟨0x010, 20, 16⟩
/-- CONTROL.FRAME_EN (R449). -/
def telControlFrameEn : Fld := ⟨0x014, 0, 0⟩
/-- CONTROL.RACK_ACCESS_EN (R449). -/
def telControlRackAccessEn : Fld := ⟨0x014, 1, 1⟩
/-- EVENT.OWNER_CHANGED (R449). -/
def telEventOwnerChanged : Fld := ⟨0x018, 0, 0⟩
/-- EVENT.FRAME_DROPPED (R449). -/
def telEventFrameDropped : Fld := ⟨0x018, 1, 1⟩
/-- EVENT.MGMT_AUTH_FAIL (R449). -/
def telEventMgmtAuthFail : Fld := ⟨0x018, 2, 2⟩
/-- EVENT.SNAPSHOT_DONE (R449). -/
def telEventSnapshotDone : Fld := ⟨0x018, 3, 3⟩
/-- CLAIM.CLAIM (R450). -/
def telClaimClaim : Fld := ⟨0x100, 0, 0⟩
/-- CLAIM.RELEASE (R450). -/
def telClaimRelease : Fld := ⟨0x100, 1, 1⟩
/-- FRAME_CFG.DECIMATE (R450). -/
def telFrameCfgDecimate : Fld := ⟨0x104, 7, 0⟩
/-- FRAME_CFG.RING_LOG2 (R450). -/
def telFrameCfgRingLog2 : Fld := ⟨0x104, 11, 8⟩
/-- RING_BASE_LO.ADDR (R450). -/
def telRingBaseLoAddr : Fld := ⟨0x108, 31, 9⟩
/-- RING_BASE_HI.ADDR (R450). -/
def telRingBaseHiAddr : Fld := ⟨0x10C, 19, 0⟩
/-- RING_INDEX.WI (R450). -/
def telRingIndexWi : Fld := ⟨0x110, 15, 0⟩
/-- RING_INDEX.RI (R450). -/
def telRingIndexRi : Fld := ⟨0x110, 31, 16⟩
/-- APERTURE_LO.ENABLE (R450). -/
def telApertureLoEnable (i : Nat) : Fld := ⟨0x120 + 8 * i, 0, 0⟩
/-- APERTURE_LO.WRITE_EN (R450). -/
def telApertureLoWriteEn (i : Nat) : Fld := ⟨0x120 + 8 * i, 1, 1⟩
/-- APERTURE_LO.BASE (R450). -/
def telApertureLoBase (i : Nat) : Fld := ⟨0x120 + 8 * i, 31, 21⟩
/-- APERTURE_HI.BASE (R450). -/
def telApertureHiBase (i : Nat) : Fld := ⟨0x124 + 8 * i, 31, 0⟩
/-- MGMT_SEQ_LO.SEQ (R450). -/
def telMgmtSeqLoSeq : Fld := ⟨0x1A0, 31, 0⟩
/-- MGMT_SEQ_HI.SEQ (R450). -/
def telMgmtSeqHiSeq : Fld := ⟨0x1A4, 31, 0⟩
/-- SNAP_TICK_LO.TICK (R450). -/
def telSnapTickLoTick : Fld := ⟨0x1A8, 31, 0⟩
/-- SNAP_TICK_HI.TICK (R450). -/
def telSnapTickHiTick : Fld := ⟨0x1AC, 31, 0⟩
/-- SNAP_PAGE.PAGE (R450). -/
def telSnapPagePage : Fld := ⟨0x1B0, 9, 0⟩
/-- STATUS.B_COALESCING (R451). -/
def trcStatusBCoalescing : Fld := ⟨0x010, 0, 0⟩
/-- CONTROL.STOP_ON_FULL (R451). -/
def trcControlStopOnFull : Fld := ⟨0x014, 0, 0⟩
/-- CONTROL.CARDING_EN (R451). -/
def trcControlCardingEn : Fld := ⟨0x014, 1, 1⟩
/-- CONTROL.TILECTL_EN (R451). -/
def trcControlTilectlEn : Fld := ⟨0x014, 2, 2⟩
/-- CONTROL.XBAR_EN (R451). -/
def trcControlXbarEn : Fld := ⟨0x014, 3, 3⟩
/-- EVENT.LOG_FILL (R451). -/
def trcEventLogFill : Fld := ⟨0x018, 0, 0⟩
/-- EVENT.B_DROPPED (R451). -/
def trcEventBDropped : Fld := ⟨0x018, 1, 1⟩
/-- EVENT.TRACE_LOST (R451). -/
def trcEventTraceLost : Fld := ⟨0x018, 2, 2⟩
/-- WINDOW.SRC (R452). -/
def trcWindowSrc : Fld := ⟨0x100, 1, 0⟩
/-- WINDOW.TILE (R452). -/
def trcWindowTile : Fld := ⟨0x100, 12, 8⟩
/-- INDEX.WI (R452). -/
def trcIndexWi : Fld := ⟨0x104, 15, 0⟩
/-- INDEX.RI (R452). -/
def trcIndexRi : Fld := ⟨0x104, 31, 16⟩
/-- LOG_IRQ.FILL (R452). -/
def trcLogIrqFill : Fld := ⟨0x108, 14, 0⟩
/-- FILL.C (R452). -/
def trcFillC : Fld := ⟨0x10C, 12, 0⟩
/-- FILL.B (R452). -/
def trcFillB : Fld := ⟨0x10C, 30, 16⟩
/-- STATUS.VARIANT (R468). -/
def modStatusVariant : Fld := ⟨0x010, 1, 0⟩
/-- STATUS.FEATURES (R468). -/
def modStatusFeatures : Fld := ⟨0x010, 5, 2⟩
/-- STATUS.ENABLED_CORES (R468). -/
def modStatusEnabledCores : Fld := ⟨0x010, 12, 6⟩
/-- STATUS.LEVEL (R468). -/
def modStatusLevel : Fld := ⟨0x010, 23, 16⟩
/-- EVENT.ACCESS_ERROR (R468). -/
def modEventAccessError : Fld := ⟨0x018, 0, 0⟩
/-- EVENT.LEVEL_WRITE (R468). -/
def modEventLevelWrite : Fld := ⟨0x018, 1, 1⟩
/-- EVENT.PMBUS_NACK (R468). -/
def modEventPmbusNack : Fld := ⟨0x018, 2, 2⟩
/-- LIMITS.MULT_MAX (R469). -/
def modLimitsMultMax : Fld := ⟨0x100, 5, 0⟩
/-- LIMITS.CAP_W10 (R469). -/
def modLimitsCapW10 : Fld := ⟨0x100, 23, 8⟩
/-- LIMITS.GROUPS (R469). -/
def modLimitsGroups : Fld := ⟨0x100, 27, 24⟩
/-- CORE_FLOOR.CORES (R469). -/
def modCoreFloorCores : Fld := ⟨0x104, 6, 0⟩
/-- FW_VERSION.PATCH (R469). -/
def modFwVersionPatch : Fld := ⟨0x108, 7, 0⟩
/-- FW_VERSION.MINOR (R469). -/
def modFwVersionMinor : Fld := ⟨0x108, 15, 8⟩
/-- FW_VERSION.MAJOR (R469). -/
def modFwVersionMajor : Fld := ⟨0x108, 23, 16⟩
/-- FW_BUILD.BUILD (R469). -/
def modFwBuildBuild : Fld := ⟨0x10C, 31, 0⟩
/-- ACCESS_LAST.PAGE (R469). -/
def modAccessLastPage : Fld := ⟨0x110, 9, 0⟩
/-- ACCESS_LAST.WORD (R469). -/
def modAccessLastWord : Fld := ⟨0x110, 19, 10⟩
/-- ACCESS_LAST.CAUSE (R469). -/
def modAccessLastCause : Fld := ⟨0x110, 23, 20⟩
/-- ACCESS_LAST.SOURCE (R469). -/
def modAccessLastSource : Fld := ⟨0x110, 25, 24⟩
/-- LEVEL_LAST.PAGE (R469). -/
def modLevelLastPage : Fld := ⟨0x114, 9, 0⟩
/-- LEVEL_LAST.WORD (R469). -/
def modLevelLastWord : Fld := ⟨0x114, 19, 10⟩
/-- LEVEL_LAST.SOURCE (R469). -/
def modLevelLastSource : Fld := ⟨0x114, 21, 20⟩
/-- LEVEL_MASK.BITS (R469). -/
def modLevelMaskBits : Fld := ⟨0x118, 31, 0⟩
/-- PMBUS_LAST.CODE (R469). -/
def modPmbusLastCode : Fld := ⟨0x11C, 7, 0⟩
/-- STATUS.FEATURES (R472). -/
def licStatusFeatures : Fld := ⟨0x010, 3, 0⟩
/-- STATUS.RESULT (R472). -/
def licStatusResult : Fld := ⟨0x010, 5, 4⟩
/-- EVENT.LICENCE_FAIL (R472). -/
def licEventLicenceFail : Fld := ⟨0x018, 0, 0⟩
/-- EVENT.LICENCE_REJECTED (R472). -/
def licEventLicenceRejected : Fld := ⟨0x018, 1, 1⟩
/-- EVENT.KEY_INSTALLED (R472). -/
def licEventKeyInstalled : Fld := ⟨0x018, 2, 2⟩
/-- EVENT.KEY_REVOKED (R472). -/
def licEventKeyRevoked : Fld := ⟨0x018, 3, 3⟩
/-- SLOT.KIND (R473). -/
def licSlotKind (i : Nat) : Fld := ⟨0x100 + 8 * i, 1, 0⟩
/-- SLOT.ENABLED (R473). -/
def licSlotEnabled (i : Nat) : Fld := ⟨0x100 + 8 * i, 2, 2⟩
/-- SLOT.REVOKED (R473). -/
def licSlotRevoked (i : Nat) : Fld := ⟨0x100 + 8 * i, 3, 3⟩
/-- SLOT.KEY_CHECK (R473). -/
def licSlotKeyCheck (i : Nat) : Fld := ⟨0x100 + 8 * i, 31, 16⟩
/-- SLOT_CMD.REVOKE (R473). -/
def licSlotCmdRevoke (i : Nat) : Fld := ⟨0x104 + 8 * i, 0, 0⟩
/-- KEY_SEL.MANAGER (R473). -/
def licKeySelManager : Fld := ⟨0x140, 0, 0⟩
/-- KEY_DATA.DATA (R473). -/
def licKeyDataData : Fld := ⟨0x144, 31, 0⟩
/-- KEY_CMD.INSTALL (R473). -/
def licKeyCmdInstall : Fld := ⟨0x148, 0, 0⟩
/-- KEY_CMD.CLEAR (R473). -/
def licKeyCmdClear : Fld := ⟨0x148, 1, 1⟩
/-- KEY_STATUS.WORDS (R473). -/
def licKeyStatusWords : Fld := ⟨0x14C, 3, 0⟩
/-- KEY_STATUS.CAUSE (R473). -/
def licKeyStatusCause : Fld := ⟨0x14C, 11, 8⟩
/-- LIC_SEQ.SEQ (R473). -/
def licLicSeqSeq : Fld := ⟨0x150, 31, 0⟩
/-- LIC_FAIL.CAUSE (R473). -/
def licLicFailCause : Fld := ⟨0x154, 3, 0⟩
/-- STATUS.PENDING (R476). -/
def evtStatusPending : Fld := ⟨0x010, 0, 0⟩
/-- STATUS.C_PENDING (R476). -/
def evtStatusCPending : Fld := ⟨0x010, 1, 1⟩
/-- CONTROL.IRQ_EN (R476). -/
def evtControlIrqEn : Fld := ⟨0x014, 0, 0⟩
/-- PEND.PAGES (R477). -/
def evtPendPages (i : Nat) : Fld := ⟨0x100 + 4 * i, 31, 0⟩
/-- CPEND.PAGES (R477). -/
def evtCpendPages (i : Nat) : Fld := ⟨0x180 + 4 * i, 31, 0⟩
/-- FIRST.PAGE (R477). -/
def evtFirstPage : Fld := ⟨0x200, 9, 0⟩
/-- FIRST.VALID (R477). -/
def evtFirstValid : Fld := ⟨0x200, 31, 31⟩
/-- C_FIRST.PAGE (R477). -/
def evtCFirstPage : Fld := ⟨0x204, 9, 0⟩
/-- C_FIRST.VALID (R477). -/
def evtCFirstValid : Fld := ⟨0x204, 31, 31⟩
/-- HOLDOFF.US (R477). -/
def evtHoldoffUs : Fld := ⟨0x208, 15, 0⟩
/-- STATUS.ERRORS (R169). -/
def opqStatusErrors : Fld := ⟨0x010, 15, 0⟩
/-- STATUS.RUNNING (R169). -/
def opqStatusRunning : Fld := ⟨0x010, 31, 16⟩
/-- EVENT.IRQ (R169). -/
def opqEventIrq : Fld := ⟨0x018, 15, 0⟩

end F

namespace Cn

/-- The offset of mod counter ACCESS_ERRORS. -/
def modAccessErrors : Nat := 0x800
/-- The offset of mod counter LEVEL_WRITES. -/
def modLevelWrites : Nat := 0x808
/-- The offset of mod counter PMBUS_NACKS. -/
def modPmbusNacks : Nat := 0x810
/-- The offset of mod counter BAR0_READS. -/
def modBar0Reads : Nat := 0x818
/-- The offset of mod counter BAR0_WRITES. -/
def modBar0Writes : Nat := 0x820
/-- The offset of tk counter TICKS. -/
def tkTicks : Nat := 0x800
/-- The offset of tk counter HELD_BOUNDARIES. -/
def tkHeldBoundaries : Nat := 0x808
/-- The offset of tk counter OVERRUNS. -/
def tkOverruns : Nat := 0x810
/-- The offset of tk counter SLEW_CYCLES. -/
def tkSlewCycles : Nat := 0x818
/-- The offset of tk counter SYNCS. -/
def tkSyncs : Nat := 0x820
/-- The offset of tk counter BARRIERS. -/
def tkBarriers : Nat := 0x828
/-- The offset of tk counter SLOW_FLAGS. -/
def tkSlowFlags : Nat := 0x830
/-- The offset of role counter HANDOVERS. -/
def roleHandovers : Nat := 0x800
/-- The offset of role counter CONFLICTS. -/
def roleConflicts : Nat := 0x808
/-- The offset of role counter NOTICES. -/
def roleNotices : Nat := 0x810
/-- The offset of role counter ABORTS. -/
def roleAborts : Nat := 0x818
/-- The offset of role counter REMAPS. -/
def roleRemaps : Nat := 0x820
/-- The offset of role counter CROWN_LOSSES. -/
def roleCrownLosses : Nat := 0x828
/-- The offset of opq0 counter DESC_BURSTS. -/
def opq0DescBursts : Nat := 0x800
/-- The offset of opq0 counter OPS_STARTED. -/
def opq0OpsStarted : Nat := 0x808
/-- The offset of opq0 counter OPS_COMPLETED. -/
def opq0OpsCompleted : Nat := 0x810
/-- The offset of opq0 counter ERROR_RECORDS. -/
def opq0ErrorRecords : Nat := 0x818
/-- The offset of opq0 counter LEVEL_ERRORS. -/
def opq0LevelErrors : Nat := 0x820
/-- The offset of opq0 counter CTX_SWITCHES. -/
def opq0CtxSwitches : Nat := 0x828
/-- The offset of opq0 counter ARRIVALS. -/
def opq0Arrivals : Nat := 0x830
/-- The offset of opq0 counter DB_REJECTED. -/
def opq0DbRejected : Nat := 0x838
/-- The offset of opq0 counter RSVD_NONZERO. -/
def opq0RsvdNonzero : Nat := 0x840
/-- The offset of opq0 counter CRING_FULL_TICKS. -/
def opq0CringFullTicks : Nat := 0x848
/-- The offset of opq0 counter REPLAYS. -/
def opq0Replays : Nat := 0x850
/-- The offset of opq counter RUN_TICKS at position i. -/
def opqRunTicks (i : Nat) : Nat := 0x800 + 16 * i
/-- The offset of opq counter OPS_DONE at position i. -/
def opqOpsDone (i : Nat) : Nat := 0x808 + 16 * i
/-- The offset of mem counter STALL at position i. -/
def memStall (i : Nat) : Nat := 0x800 + 8 * i
/-- The offset of mem counter STALL_LAST_GTC. -/
def memStallLastGtc : Nat := 0x840
/-- The offset of mem counter MIGRATIONS. -/
def memMigrations : Nat := 0x848
/-- The offset of mem counter MIG_REFUSED. -/
def memMigRefused : Nat := 0x850
/-- The offset of mem counter REFETCHES. -/
def memRefetches : Nat := 0x858
/-- The offset of mem counter PAGES_POISONED. -/
def memPagesPoisoned : Nat := 0x860
/-- The offset of mem counter TMC_MISSES. -/
def memTmcMisses : Nat := 0x868
/-- The offset of mem counter CMD_DISCARDS. -/
def memCmdDiscards : Nat := 0x870
/-- The offset of mem counter POUNCE_PASSES. -/
def memPouncePasses : Nat := 0x878
/-- The offset of shf counter READ_BYTES. -/
def shfReadBytes : Nat := 0x800
/-- The offset of shf counter WRITE_BYTES. -/
def shfWriteBytes : Nat := 0x808
/-- The offset of shf counter HOODS_LOADED. -/
def shfHoodsLoaded : Nat := 0x810
/-- The offset of shf counter HOOD_FAILS. -/
def shfHoodFails : Nat := 0x818
/-- The offset of shf counter ERASES. -/
def shfErases : Nat := 0x820
/-- The offset of shf counter BLOCKS_RETIRED. -/
def shfBlocksRetired : Nat := 0x828
/-- The offset of shf counter WEAR_MOVE_BYTES. -/
def shfWearMoveBytes : Nat := 0x830
/-- The offset of fabSpine counter JOIN_BYTES_N2S. -/
def fabSpineJoinBytesN2s : Nat := 0x800
/-- The offset of fabSpine counter JOIN_BYTES_S2N. -/
def fabSpineJoinBytesS2n : Nat := 0x808
/-- The offset of fabSpine counter LAT_MAX. -/
def fabSpineLatMax : Nat := 0x810
/-- The offset of fabSpine counter LAT_OVER. -/
def fabSpineLatOver : Nat := 0x818
/-- The offset of fabSpine counter LINK_HOT_TICKS. -/
def fabSpineLinkHotTicks : Nat := 0x820
/-- The offset of fabSpine counter LINK_RETRIES. -/
def fabSpineLinkRetries : Nat := 0x828
/-- The offset of fabSpine counter SLOT_LOANS. -/
def fabSpineSlotLoans : Nat := 0x830
/-- The offset of fabSpine counter TAG_ORPHANS. -/
def fabSpineTagOrphans : Nat := 0x838
/-- The offset of fabSpine counter BAD_DEST. -/
def fabSpineBadDest : Nat := 0x840
/-- The offset of crdGlobal counter PULLS_SENT. -/
def crdGlobalPullsSent : Nat := 0x800
/-- The offset of crdGlobal counter REQS_SENT. -/
def crdGlobalReqsSent : Nat := 0x808
/-- The offset of crdGlobal counter NAKS. -/
def crdGlobalNaks : Nat := 0x810
/-- The offset of crdGlobal counter DEADLINES. -/
def crdGlobalDeadlines : Nat := 0x818
/-- The offset of crdGlobal counter DUPLICATES. -/
def crdGlobalDuplicates : Nat := 0x820
/-- The offset of crdGlobal counter STALE. -/
def crdGlobalStale : Nat := 0x828
/-- The offset of crdGlobal counter HDR_MISMATCH. -/
def crdGlobalHdrMismatch : Nat := 0x830
/-- The offset of crdGlobal counter HDR_BAD. -/
def crdGlobalHdrBad : Nat := 0x838
/-- The offset of crdGlobal counter LEVEL_ERRORS. -/
def crdGlobalLevelErrors : Nat := 0x840
/-- The offset of crdGlobal counter DISCARD_STATE. -/
def crdGlobalDiscardState : Nat := 0x848
/-- The offset of ful counter SEGS_LOCAL. -/
def fulSegsLocal : Nat := 0x800
/-- The offset of ful counter SEGS_PEER. -/
def fulSegsPeer : Nat := 0x808
/-- The offset of ful counter SEGS_UP. -/
def fulSegsUp : Nat := 0x810
/-- The offset of ful counter SEGS_DOWN. -/
def fulSegsDown : Nat := 0x818
/-- The offset of ful counter BLOCKS_SPARSE. -/
def fulBlocksSparse : Nat := 0x820
/-- The offset of ful counter BLOCKS_DENSE. -/
def fulBlocksDense : Nat := 0x828
/-- The offset of ful counter BYTES_SAVED. -/
def fulBytesSaved : Nat := 0x830
/-- The offset of ful counter ACC_SAT. -/
def fulAccSat : Nat := 0x838
/-- The offset of ful counter MISSING. -/
def fulMissing : Nat := 0x840
/-- The offset of ful counter ABORTS. -/
def fulAborts : Nat := 0x848
/-- The offset of ful counter STALE. -/
def fulStale : Nat := 0x850
/-- The offset of ful counter E_MISMATCH. -/
def fulEMismatch : Nat := 0x858
/-- The offset of ful counter WINDOW_VIOLATION. -/
def fulWindowViolation : Nat := 0x860
/-- The offset of ful counter MALFORMED. -/
def fulMalformed : Nat := 0x868
/-- The offset of ful counter FOREIGN. -/
def fulForeign : Nat := 0x870
/-- The offset of ful counter DISCARD_STATE. -/
def fulDiscardState : Nat := 0x878
/-- The offset of ful counter BACKLOG_TICKS. -/
def fulBacklogTicks : Nat := 0x880
/-- The offset of ful counter AUDIT_MISMATCHES. -/
def fulAuditMismatches : Nat := 0x888
/-- The offset of nol counter MSGS_TX. -/
def nolMsgsTx : Nat := 0x800
/-- The offset of nol counter MSGS_RX. -/
def nolMsgsRx : Nat := 0x808
/-- The offset of nol counter MSG_DUPLICATES. -/
def nolMsgDuplicates : Nat := 0x810
/-- The offset of nol counter MSGS_RESENT. -/
def nolMsgsResent : Nat := 0x818
/-- The offset of nol counter PARTIAL_DISCARDS. -/
def nolPartialDiscards : Nat := 0x820
/-- The offset of nol counter PEER_REFUSED. -/
def nolPeerRefused : Nat := 0x828
/-- The offset of nol counter HELD_DISCARDS. -/
def nolHeldDiscards : Nat := 0x830
/-- The offset of nol counter ROLE_DISCARDS. -/
def nolRoleDiscards : Nat := 0x838
/-- The offset of nol counter SESSIONS. -/
def nolSessions : Nat := 0x840
/-- The offset of nol counter REFUSALS. -/
def nolRefusals : Nat := 0x848
/-- The offset of nol counter LEVEL_ERRORS. -/
def nolLevelErrors : Nat := 0x850
/-- The offset of clk counter CDC_TIMEOUTS. -/
def clkCdcTimeouts : Nat := 0x800
/-- The offset of clk counter FIFO_OVERRUNS. -/
def clkFifoOverruns : Nat := 0x808
/-- The offset of clk counter RESET_FLUSHES. -/
def clkResetFlushes : Nat := 0x810
/-- The offset of clk counter BURSTS_DISCARDED. -/
def clkBurstsDiscarded : Nat := 0x818
/-- The offset of clk counter FREQ_STEPS. -/
def clkFreqSteps : Nat := 0x820
/-- The offset of clk counter PHASE_LIMIT_TICKS. -/
def clkPhaseLimitTicks : Nat := 0x828
/-- The offset of pwrGlobal counter INPUT_DIPS. -/
def pwrGlobalInputDips : Nat := 0x800
/-- The offset of pwrGlobal counter INPUT_LOSSES. -/
def pwrGlobalInputLosses : Nat := 0x808
/-- The offset of pwrGlobal counter CAP_CHANGES. -/
def pwrGlobalCapChanges : Nat := 0x810
/-- The offset of pwrGlobal counter CAP_LIMIT_TICKS. -/
def pwrGlobalCapLimitTicks : Nat := 0x818
/-- The offset of pwrGlobal counter CAP_UNMET_TICKS. -/
def pwrGlobalCapUnmetTicks : Nat := 0x820
/-- The offset of pwrGlobal counter GAUGE_MISMATCHES. -/
def pwrGlobalGaugeMismatches : Nat := 0x828
/-- The offset of pwrGlobal counter ENERGY_IN_J. -/
def pwrGlobalEnergyInJ : Nat := 0x830
/-- The offset of thm counter WARN_TICKS. -/
def thmWarnTicks : Nat := 0x800
/-- The offset of thm counter TRIPS. -/
def thmTrips : Nat := 0x808
/-- The offset of thm counter INLET_HIGH_TICKS. -/
def thmInletHighTicks : Nat := 0x810
/-- The offset of thm counter FLOW_LOW_TICKS. -/
def thmFlowLowTicks : Nat := 0x818
/-- The offset of bup counter BRINGUPS. -/
def bupBringups : Nat := 0x800
/-- The offset of bup counter BRINGUPS_FULL. -/
def bupBringupsFull : Nat := 0x808
/-- The offset of bup counter HELD_ENTRIES. -/
def bupHeldEntries : Nat := 0x810
/-- The offset of bup counter COMPUTE_RESETS. -/
def bupComputeResets : Nat := 0x818
/-- The offset of bup counter CFG_COMMITS. -/
def bupCfgCommits : Nat := 0x820
/-- The offset of bup counter CMDS_REFUSED. -/
def bupCmdsRefused : Nat := 0x828
/-- The offset of bup counter STAGE_TIMEOUTS. -/
def bupStageTimeouts : Nat := 0x830
/-- The offset of fus counter FIELD_APPENDS. -/
def fusFieldAppends : Nat := 0x800
/-- The offset of fus counter LOG_DROPPED. -/
def fusLogDropped : Nat := 0x808
/-- The offset of fus counter MERGES. -/
def fusMerges : Nat := 0x810
/-- The offset of fus counter FRAMES_RETIRED. -/
def fusFramesRetired : Nat := 0x818
/-- The offset of tel counter FRAMES_WRITTEN. -/
def telFramesWritten : Nat := 0x800
/-- The offset of tel counter FRAMES_DROPPED. -/
def telFramesDropped : Nat := 0x808
/-- The offset of tel counter MGMT_APPLIED. -/
def telMgmtApplied : Nat := 0x810
/-- The offset of tel counter MGMT_STALE. -/
def telMgmtStale : Nat := 0x818
/-- The offset of tel counter MGMT_AUTH_FAILS. -/
def telMgmtAuthFails : Nat := 0x820
/-- The offset of tel counter BAR2_READS. -/
def telBar2Reads : Nat := 0x828
/-- The offset of tel counter BAR2_WRITES. -/
def telBar2Writes : Nat := 0x830
/-- The offset of tel counter BAR2_ERRORS. -/
def telBar2Errors : Nat := 0x838
/-- The offset of tel counter BAR2_FOREIGN. -/
def telBar2Foreign : Nat := 0x840
/-- The offset of tel counter OWNER_CHANGES. -/
def telOwnerChanges : Nat := 0x848
/-- The offset of tel counter CLAIM_REFUSED. -/
def telClaimRefused : Nat := 0x850
/-- The offset of tel counter SNAPSHOTS. -/
def telSnapshots : Nat := 0x858
/-- The offset of trc counter C_RECORDS. -/
def trcCRecords : Nat := 0x800
/-- The offset of trc counter B_RECORDS. -/
def trcBRecords : Nat := 0x808
/-- The offset of trc counter B_COALESCED. -/
def trcBCoalesced : Nat := 0x810
/-- The offset of trc counter B_DROPPED. -/
def trcBDropped : Nat := 0x818
/-- The offset of trc counter A_FOLDED. -/
def trcAFolded : Nat := 0x820
/-- The offset of trc counter C_CLEAR_DEFERRED. -/
def trcCClearDeferred : Nat := 0x828
/-- The offset of trc counter SHELF_LOG_WRITES. -/
def trcShelfLogWrites : Nat := 0x830
/-- The offset of trc counter TRACE_RECORDS. -/
def trcTraceRecords : Nat := 0x838
/-- The offset of trc counter TRACE_OVERWRITTEN. -/
def trcTraceOverwritten : Nat := 0x840
/-- The offset of trc counter TRACE_DROPPED. -/
def trcTraceDropped : Nat := 0x848
/-- The offset of core counter ARRAY_ACTIVE_CYCLES. -/
def coreArrayActiveCycles : Nat := 0x800
/-- The offset of core counter KSTEPS. -/
def coreKsteps : Nat := 0x808
/-- The offset of core counter TASKS_DONE. -/
def coreTasksDone : Nat := 0x810
/-- The offset of core counter SLACK_LAST. -/
def coreSlackLast : Nat := 0x818
/-- The offset of core counter SLACK_MIN. -/
def coreSlackMin : Nat := 0x820
/-- The offset of core counter OVERRUN_CYCLES. -/
def coreOverrunCycles : Nat := 0x828
/-- The offset of core counter WS_CE_COUNT. -/
def coreWsCeCount : Nat := 0x830
/-- The offset of core counter WS_UE_COUNT. -/
def coreWsUeCount : Nat := 0x838
/-- The offset of core counter ARRAY_CHECK_COUNT. -/
def coreArrayCheckCount : Nat := 0x840
/-- The offset of core counter SAT_COUNT. -/
def coreSatCount : Nat := 0x848
/-- The offset of core counter NONFINITE_COUNT. -/
def coreNonfiniteCount : Nat := 0x850
/-- The offset of core counter SE_WAIT_CYCLES. -/
def coreSeWaitCycles : Nat := 0x858
/-- The offset of core counter SE_READS. -/
def coreSeReads : Nat := 0x860
/-- The offset of core counter STRANDS_LAUNCHED. -/
def coreStrandsLaunched : Nat := 0x868
/-- The offset of core counter STRAND_FAULTS. -/
def coreStrandFaults : Nat := 0x870
/-- The offset of core counter BANK_WAIT_CYCLES. -/
def coreBankWaitCycles : Nat := 0x878
/-- The offset of core counter WBUF_REFUSED_COUNT. -/
def coreWbufRefusedCount : Nat := 0x880
/-- The offset of core counter WBUF_FLIPS. -/
def coreWbufFlips : Nat := 0x888
/-- The offset of spx counter TILES_DENSE. -/
def spxTilesDense : Nat := 0x800
/-- The offset of spx counter TILES_SPARSE. -/
def spxTilesSparse : Nat := 0x808
/-- The offset of spx counter VALUES_DEALT. -/
def spxValuesDealt : Nat := 0x810
/-- The offset of spx counter SPARSE_CYCLES. -/
def spxSparseCycles : Nat := 0x818
/-- The offset of spx counter NM_BLOCKS. -/
def spxNmBlocks : Nat := 0x820
/-- The offset of spx counter LANE_WAIT_CYCLES. -/
def spxLaneWaitCycles : Nat := 0x828
/-- The offset of spx counter INDEX_ERRORS. -/
def spxIndexErrors : Nat := 0x830
/-- The offset of spx counter RECORD_ERRORS. -/
def spxRecordErrors : Nat := 0x838
/-- The offset of spx counter PRUNED_NONFINITE. -/
def spxPrunedNonfinite : Nat := 0x840
/-- The offset of spx counter QUARTER_DEMOTED. -/
def spxQuarterDemoted : Nat := 0x848
/-- The offset of spx counter HACC_UPDATES. -/
def spxHaccUpdates : Nat := 0x850
/-- The offset of spx counter HACC_PROBES. -/
def spxHaccProbes : Nat := 0x858
/-- The offset of spx counter HACC_SPILLS. -/
def spxHaccSpills : Nat := 0x860
/-- The offset of spx counter SPILL_DROPPED. -/
def spxSpillDropped : Nat := 0x868
/-- The offset of spx counter LINK_BLOCKS_SPARSE. -/
def spxLinkBlocksSparse : Nat := 0x870
/-- The offset of spx counter LINK_BLOCKS_DENSE. -/
def spxLinkBlocksDense : Nat := 0x878
/-- The offset of spx counter LINK_BYTES_SAVED. -/
def spxLinkBytesSaved : Nat := 0x880
/-- The offset of slc counter CE_COUNT. -/
def slcCeCount : Nat := 0x800
/-- The offset of slc counter UE_COUNT. -/
def slcUeCount : Nat := 0x808
/-- The offset of slc counter HOT_TICKS. -/
def slcHotTicks : Nat := 0x810
/-- The offset of slc counter READ_BYTES. -/
def slcReadBytes : Nat := 0x818
/-- The offset of slc counter WRITE_BYTES. -/
def slcWriteBytes : Nat := 0x820
/-- The offset of slc counter SCRUB_BYTES. -/
def slcScrubBytes : Nat := 0x828
/-- The offset of fabTile counter SEAM_RETRIES. -/
def fabTileSeamRetries : Nat := 0x800
/-- The offset of fabTile counter XBAR_BYTES_IN. -/
def fabTileXbarBytesIn : Nat := 0x808
/-- The offset of fabTile counter XBAR_BYTES_OUT. -/
def fabTileXbarBytesOut : Nat := 0x810
/-- The offset of fabTile counter UPLINK_BYTES_UP. -/
def fabTileUplinkBytesUp : Nat := 0x818
/-- The offset of fabTile counter UPLINK_BYTES_DOWN. -/
def fabTileUplinkBytesDown : Nat := 0x820
/-- The offset of fabTile counter SLOT_LOANS. -/
def fabTileSlotLoans : Nat := 0x828
/-- The offset of crdTile counter BATTS_COMMITTED. -/
def crdTileBattsCommitted : Nat := 0x800
/-- The offset of crdTile counter PAYLOAD_BYTES. -/
def crdTilePayloadBytes : Nat := 0x808
/-- The offset of crdTile counter OUT_BYTES. -/
def crdTileOutBytes : Nat := 0x810
/-- The offset of crdTile counter CRC_FAILS. -/
def crdTileCrcFails : Nat := 0x818
/-- The offset of crdTile counter MALFORMED. -/
def crdTileMalformed : Nat := 0x820
/-- The offset of crdTile counter FORMAT_ERRORS. -/
def crdTileFormatErrors : Nat := 0x828
/-- The offset of crdTile counter SAT_COUNT. -/
def crdTileSatCount : Nat := 0x830
/-- The offset of crdTile counter NONFINITE_COUNT. -/
def crdTileNonfiniteCount : Nat := 0x838
/-- The offset of crdTile counter CHAIN_BYTES. -/
def crdTileChainBytes : Nat := 0x840
/-- The offset of crdTile counter BACKLOG_TICKS. -/
def crdTileBacklogTicks : Nat := 0x848
/-- The offset of pwrTile counter OPEN_PHASES. -/
def pwrTileOpenPhases : Nat := 0x800
/-- The offset of pwrTile counter SENSE_FAILS. -/
def pwrTileSenseFails : Nat := 0x808
/-- The offset of pwrTile counter OC_GATE_PERIODS. -/
def pwrTileOcGatePeriods : Nat := 0x810
/-- The offset of pwrTile counter VCORE_ENERGY_J. -/
def pwrTileVcoreEnergyJ : Nat := 0x818
/-- The offset of pwrTile counter LIMIT_TICKS. -/
def pwrTileLimitTicks : Nat := 0x820
/-- The offset of hb counter TX_FLITS. -/
def hbTxFlits : Nat := 0x800
/-- The offset of hb counter RX_FLITS. -/
def hbRxFlits : Nat := 0x808
/-- The offset of hb counter REPLAYS. -/
def hbReplays : Nat := 0x810
/-- The offset of hb counter ACK_TIMEOUTS. -/
def hbAckTimeouts : Nat := 0x818
/-- The offset of hb counter RX_CRC_FAILS. -/
def hbRxCrcFails : Nat := 0x820
/-- The offset of hb counter RX_DUPLICATES. -/
def hbRxDuplicates : Nat := 0x828
/-- The offset of hb counter REPLAY_FAILS. -/
def hbReplayFails : Nat := 0x830
/-- The offset of hb counter RETRAINS. -/
def hbRetrains : Nat := 0x838
/-- The offset of hb counter FEC_CORRECTED. -/
def hbFecCorrected : Nat := 0x840
/-- The offset of hb counter FEC_UNCORRECTABLE. -/
def hbFecUncorrectable : Nat := 0x848
/-- The offset of hb counter BUF_FULL_CYCLES. -/
def hbBufFullCycles : Nat := 0x850
/-- The offset of hb counter CREDIT_WAIT_CYCLES. -/
def hbCreditWaitCycles : Nat := 0x858
/-- The offset of hb counter DOWNS. -/
def hbDowns : Nat := 0x860
/-- The offset of drm counter CE_COUNT. -/
def drmCeCount : Nat := 0x800
/-- The offset of drm counter UE_COUNT. -/
def drmUeCount : Nat := 0x808
/-- The offset of drm counter READ_BYTES. -/
def drmReadBytes : Nat := 0x810
/-- The offset of drm counter WRITE_BYTES. -/
def drmWriteBytes : Nat := 0x818
/-- The offset of drm counter REMOTE_BYTES. -/
def drmRemoteBytes : Nat := 0x820
/-- The offset of drm counter SCRUB_BYTES. -/
def drmScrubBytes : Nat := 0x828
/-- The offset of drm counter SLOT_LOANS. -/
def drmSlotLoans : Nat := 0x830

end Cn

end Sys2Proof.Machine
end

