-- ==== Sys2Proof/Machine/State.lean ====
section
/-! DEFINITION. The state of the module: plain data, one structure per chapter's subject, and the reset state. Registers live
in one table keyed by page and word (Board.regs); what the registers do not hold stands in the structures beside it. -/
namespace Sys2Proof.Machine

/-! ### Registers, events, records (15_management_and_observation, 16_register_pages) -/

/-- One event record (R442). -/
structure EvRec where
  gtc : Nat
  page : Nat
  cls : Nat
  inst : Nat
  bit : Nat
  first : Bool
  last : Bool
  tile : Nat
  count : Nat
  seq : Nat
  detail : Nat
  deriving DecidableEq, Repr

/-- A log ring in log staging: the records not yet released, oldest first, and the free-running write index (R443, R446). -/
structure LogRing where
  recs : List EvRec
  wi : Nat
  deriving DecidableEq, Repr

/-- What coalescing has recorded for one cause (PAGE, INSTANCE, BIT): the FIRST record alone, or a LAST record with its
sequence number (R444). -/
structure Coal where
  page : Nat
  bit : Nat
  last : Option Nat
  deriving DecidableEq, Repr

/-- One trace record (R447). -/
structure TraceRec where
  gtc : Nat
  tile : Nat
  unit : Nat
  kind : Nat
  ctx : Nat
  seq : Nat
  payload : Bytes
  deriving DecidableEq, Repr

/-- A tile's trace ring: the records not released, oldest first, and the write index (R447, R448). -/
structure TraceRing where
  recs : List TraceRec
  wi : Nat
  deriving DecidableEq, Repr

/-- What the module sends or answers, newest last in `Board.out`. -/
inductive Out where
  /-- A Nolino message: engine group, class, SUBKIND, group message sequence number and body (R298 to R300). -/
  | msg (group cls subkind gmsn : Nat) (body : Bytes)
  /-- A flit of an engine, whole (R289). -/
  | flit (engine : Nat) (bytes : Bytes)
  /-- A LINK swap request: the lane to leave and the spare to take (R310). -/
  | swap (engine x y : Nat)
  /-- An MSI-X message: link (0 A, 1 B) and vector (R435). -/
  | vector (link vec : Nat)
  /-- A management datagram to a manager: OP, STATUS, SEQ and data (R436, R437). -/
  | mgmt (manager op status seq : Nat) (data : Bytes)
  /-- A REMOTE_ACCESS command to another module (R432). -/
  | remote (rack addr len write : Nat) (data : Bytes)
  /-- The answer to a two-wire command; `nack` for an undefined code (R375). -/
  | pmbus (code : Nat) (nack : Bool) (data : Bytes)
  /-- A BAR0 read completion (R453). -/
  | bar0 (link value : Nat)
  /-- A BAR2 read completion, or Completer Abort (R430). -/
  | bar2 (link : Nat) (abort : Bool) (data : Bytes)
  /-- A fabric packet: source, destination port, kind and address (R203, R204). -/
  | fabric (src dst kind addr : Nat)
  /-- RESET_NOTIFY or FLUSH_DONE across a crossing (R360). -/
  | crossing (side : Nat) (done : Bool)
  deriving DecidableEq, Repr

/-- The register file and everything an event touches. -/
structure Board where
  /-- GTC: MCLK cycles since the mesh locked (R323). -/
  gtc : Nat
  /-- The powered switched domains, by their slot of R369. -/
  on : List Nat
  /-- Register words, keyed page × 1024 + offset ÷ 4; an unlisted word holds its table's reset value. -/
  regs : List (Nat × Word)
  /-- Live counters, keyed page × 128 + (offset − 0x800) ÷ 8. -/
  live : List (Nat × Word64)
  /-- The counters' latest snapshot, keyed as `live` (R458). -/
  snap : List (Nat × Word64)
  /-- For an EVENT bit whose class depends on the event: the most severe class since it was last clear, keyed
  page × 16 + bit (R462). -/
  evCls : List (Nat × Nat)
  /-- High words latched by a read of the low word, keyed link × 2^20 + register key (R455). -/
  latch : List (Nat × Option Word)
  /-- The MSI-X table and pending bit array of each link, keyed link × 2048 + page bit × 1024 + offset ÷ 4 (R457). -/
  msix : List (Nat × Word)
  /-- Within HOLDOFF after a vector 0 message (R478). -/
  holding : Bool
  /-- A rise was held back during HOLDOFF (R478). -/
  heldBack : Bool
  ringC : LogRing
  ringB : LogRing
  coal : List Coal
  /-- Records appended to a log ring that the shelf has not programmed yet (R443). -/
  toShelf : List EvRec
  /-- The shelf log area, oldest first (R443). -/
  shelfLog : List EvRec
  /-- Trace rings by tile (R447). -/
  traces : List (Nat × TraceRing)
  /-- The snapshot image at reserve address 0x0_0003_1F00_0000, keyed as `snap` (R441). -/
  image : List (Nat × Word64)
  /-- Everything the module has sent, newest last. -/
  out : List Out
  deriving DecidableEq, Repr

/-! ### Fuses, defects and the stores (14_bringup_and_defects) -/

/-- One defect entry (R400). -/
structure Defect where
  kind : Nat
  source : Nat
  unit : Nat
  detail : Nat
  bringup : Nat
  deriving DecidableEq, Repr

/-- A LIC key slot (R471, R473). -/
structure KeySlot where
  key : Bytes
  revoked : Bool
  deriving DecidableEq, Repr

/-- Factory fuses, the field-defect log, the configuration store and the firmware identity: what stays when the module is
OFF. -/
structure Store where
  /-- 0 TD3-X, 1 TD3-M, 2 TD3-S (R412). -/
  variant : Nat
  serial : Nat
  factory : List Defect
  fieldLog : List Defect
  /-- Entries appended to staging that the shelf has not programmed (R402). -/
  fieldStaged : List Defect
  /-- The log's signature verifies (R402). -/
  logValid : Bool
  lifeBringups : Nat
  quickSince : Nat
  /-- The previous bring-up reached SERVICE (R395). -/
  reached : Bool
  /-- The configuration banks A and B, as bytes (R407). -/
  bankA : Bytes
  bankB : Bytes
  /-- LIC slots 0 to 7 (R471). -/
  keys : List KeySlot
  /-- The key a management slot held before the last install, while the 10 s grace runs (R474), for slots 6 and 7. -/
  oldKeys : List (Option Bytes)
  /-- Firmware version and build (R469). -/
  fwVersion : Nat
  fwBuild : Nat
  /-- The power board's cause latch (R376, R380, R392). -/
  lastOff : Nat
  deriving DecidableEq, Repr

/-- Bring-up and HELD: what BUP's registers do not hold. -/
structure Bup where
  /-- The merged map, derived entries included, in ascending order (R403, R405). -/
  merged : List Defect
  /-- Entries made since the last merge (R418). -/
  sinceMerge : List Defect
  /-- Entries that the full log did not take, applied until the next bring-up (R402). -/
  extra : List Defect
  /-- Entries since the last merge whose spares a compute reset has substituted (R67, R222, R418). -/
  applied : List Defect
  /-- The TOPOLOGY payload that the last reading of the store took (R407, R410). -/
  topo : Option Bytes
  /-- CFG staging (R411). -/
  staging : Bytes
  stagingOver : Bool
  /-- HELD causes accepted until the next bring-up (R417). -/
  accepted : Nat
  /-- The module has entered SERVICE since the last bring-up (R322). -/
  served : Bool
  /-- A compute reset waits for its grid point (R418). -/
  resetPending : Bool
  /-- This CHECKING follows a compute reset (R419, R420). -/
  afterReset : Bool
  /-- SERVICE starts at the next grid point (R415). -/
  toService : Bool
  /-- A TK.PERIOD write waits to restart the grid (R322). -/
  regrid : Bool
  /-- POWER_ON was accepted and waits for HOLDUP_READY (R377). -/
  powerOn : Bool
  /-- HELD was entered from SERVICE: in-flight operators end at the next grid point (R416). -/
  heldAbort : Bool
  deriving DecidableEq, Repr

/-! ### Memory tiers (06_memory_tiers) -/

/-- One tier-map entry (R175). -/
structure PageEntry where
  tier : Nat
  valid : Bool
  writable : Bool
  sealed : Bool
  poison : Bool
  homeValid : Bool
  ctx : Nat
  frame : Nat
  homeTier : Nat
  object : Nat
  homeFrame : Nat
  deriving DecidableEq, Repr

/-- An unmapped entry. -/
def PageEntry.none : PageEntry := ⟨0, false, false, false, false, false, 0, 0, 0, 0, 0⟩

/-- A change of one tier-map entry that waits for a tick boundary (R177). -/
structure MapChange where
  page : Nat
  entry : PageEntry
  /-- The change counts as a migrated page (R198). -/
  moved : Bool
  deriving DecidableEq, Repr

/-- A frame that becomes free after `left` more boundaries (R177). -/
structure Freeing where
  tier : Nat
  frame : Nat
  left : Nat
  deriving DecidableEq, Repr

/-- A queued memory command (R188): OP and its four arguments. -/
structure MemCmd where
  op : Nat
  a0 : Nat
  a1 : Nat
  a2 : Nat
  a3 : Nat
  deriving DecidableEq, Repr

/-- A migration request (R190): which context and tag asked, promote or demote, all its pages, and those not yet taken. -/
structure MigReq where
  ctx : Nat
  tag : Nat
  promote : Bool
  range : List Nat
  pages : List Nat
  deriving DecidableEq, Repr

/-- A page in flight in the migration engine (R190), or one being refetched (R195). -/
structure MigFly where
  page : Nat
  tier : Nat
  frame : Nat
  refetch : Bool
  deriving DecidableEq, Repr

/-- A hood on the shelf, its whole image, and the shelf page where its payload starts (R184, R185). -/
structure Hood where
  image : Bytes
  shelfPage : Nat
  deriving DecidableEq, Repr

/-- A hood load in progress (R186). -/
structure Load where
  ctx : Nat
  tag : Nat
  hood : Hood
  firstPage : Nat
  deriving DecidableEq, Repr

/-- The tiers, the tier map and the engines that move pages. -/
structure Tier where
  /-- Tier-map entries by page number (R172, R175). -/
  map : List (Nat × PageEntry)
  changes : List MapChange
  freeing : List Freeing
  /-- Frames in use or retired, by tier 0 and tier 1 frame number. -/
  used0 : List (Nat × Bool)
  used1 : List (Nat × Bool)
  /-- Frames that the merged map retires (R404). -/
  retired0 : List Nat
  retired1 : List Nat
  cmdQ : List MemCmd
  cmdRun : Option MemCmd
  /-- Frames that the running ALLOC has taken (R496). -/
  cmdFrames : List Nat
  migQ : List MigReq
  fly : List MigFly
  hoods : List Hood
  /-- Hood loads in progress, oldest first (R186). -/
  loads : List Load
  /-- Bytes of tier 3 space that RDATA has brought, by unified address. -/
  remote : List (Nat × Option Byte)
  /-- Uncorrectable errors met per frame, keyed tier × 2^32 + frame (R195). -/
  ueCount : List (Nat × Nat)
  nextObject : Nat
  /-- Where pounce stands in each unit's continuous cycle, in bytes: working stores, slices, channels (R194). -/
  pounceWs : Nat
  pounceSlc : Nat
  pounceDrm : Nat
  deriving DecidableEq, Repr

/-! ### Contexts, partitions, cores (03_large_cores, 05_sniash_operators) -/

/-- A byte range [lo, hi) of the unified range. -/
structure Range where
  lo : Nat
  hi : Nat
  deriving DecidableEq, Repr

/-- The fields of a completion-ring record (R139). -/
structure Rec where
  type : Nat
  replay : Bool
  opcode : Nat
  level : Nat
  ctx : Nat
  tag : Nat
  qindex : Nat
  cause : Nat
  slot : Nat
  nonfinite : Bool
  digestValid : Bool
  digest : Nat
  gtcStart : Nat
  gtcEnd : Nat
  ticks : Nat
  satCount : Nat
  nonfiniteCount : Nat
  aux : Nat
  stallTicks : Nat
  irq : Bool
  deriving DecidableEq, Repr

/-- An operator that has started, or has failed, and whose record is not written yet (R138, R140). -/
structure OpRun where
  qindex : Nat
  desc : Bytes
  /-- The record it will write; the times and tick counts are completed later. -/
  record : Rec
  /-- Complete, its record owed. -/
  complete : Bool
  /-- What its tensors, scale and metadata arrays cover (R133, R138), and its outputs alone. -/
  tensors : List Range
  outputs : List Range
  /-- What it writes when it completes: address and bytes. -/
  outW : List (Nat × Bytes)
  /-- A layer mark, which completes at the swap of the weight halves (R245). -/
  mark : Bool
  deriving DecidableEq, Repr

/-- A context: what its OPQ registers do not hold (R157 to R165). -/
structure Ctx where
  /-- The producer index that the last boundary made act (R136, R324). -/
  actPi : Nat
  /-- The producer index that the last close point sampled (R324). -/
  closePi : Nat
  /-- Fetched descriptors by queue index (R137). -/
  fetched : List (Nat × Bytes)
  ops : List OpRun
  /-- Records of other types owed while the ring is full (R140). -/
  owed : List Rec
  credit : Int
  /-- A descriptor was pending at the previous boundary (R160). -/
  hadPending : Bool
  /-- An arrival that waits to be chosen: OPQ#0.ARRIVALS has counted it (R160). -/
  arrived : Bool
  /-- SEQ of the last record written (R139). -/
  seq : Nat
  /-- A STEP has completed since the last reset, and the number that the last one carried (R163). -/
  stepped : Bool
  stepNo : Nat
  /-- Queue indexes left to run again after a rewind (R163). -/
  replayLeft : Nat
  /-- Rewound, and waiting for the replay to start (R338). -/
  paused : Bool
  disablePending : Bool
  /-- LOAD_HOOD waits for the in-flight operators (R157). -/
  loadPending : Bool
  /-- A CTX_CFG write of LEVEL_PIN and SHARE that waits for the boundary (R158). -/
  cfgNext : Option Word
  deriving DecidableEq, Repr

/-- A context that has done nothing. -/
def Ctx.init : Ctx :=
  { actPi := 0, closePi := 0, fetched := [], ops := [], owed := [], credit := 0, hadPending := false, arrived := false, seq := 0,
    stepped := false, stepNo := 0, replayLeft := 0, paused := false, disablePending := false, loadPending := false,
    cfgNext := none }

/-- A partition: what its PART registers do not hold. -/
structure Part where
  /-- Ticks the current context has run (R160). -/
  run : Nat
  /-- Causes of R192 sampled at the close point, ascending. -/
  causes : List Nat
  deriving DecidableEq, Repr

/-- An outstanding stream engine read (R81). -/
structure SeRead where
  tag : Nat
  addr : Nat
  len : Nat
  tier : Nat
  desc : Bool
  forNext : Bool
  deriving DecidableEq, Repr

/-- A strand: its program counter and its 32 registers (R76). -/
structure Strand where
  pc : Nat
  regs : List Word
  deriving DecidableEq, Repr

/-- A core: what its CORE and SPX registers do not hold. -/
structure Core where
  /-- The running task: context and queue index, and the GTC of its start (R85). -/
  task : Option (Nat × Nat × Nat)
  /-- The GTC at which the running task completed (R86). -/
  doneAt : Option Nat
  /-- Complete, or idle, at the last close point (R324). -/
  sampled : Bool
  /-- The task was incomplete at its boundary, whose GTC this is (R86). -/
  overran : Option Nat
  /-- SLACK_MIN holds a task's slack (R87). -/
  slackSeen : Bool
  /-- Most stream engine entries in use in this tick (R93). -/
  sePeak : Nat
  reads : List SeRead
  /-- General reads waiting for an entry (R83). -/
  waiting : List SeRead
  /-- Hash accumulator entries by slot: key and FP32 value (R110). -/
  hacc : List (Nat × Option (Nat × Word))
  /-- Residue mismatches per array site since the last reset (R67). -/
  siteErrs : List (Nat × Nat)
  /-- Uncorrectable errors per working store sector, and the poisoned sectors (R71). -/
  wsErrs : List (Nat × Nat)
  wsPoison : List Nat
  /-- Consecutive low-slack ticks, and consecutive ticks at or above the threshold (R339). -/
  slowRun : Nat
  fastRun : Nat
  /-- Vector registers, keyed register × 2048 + element (R74). -/
  vregs : List (Nat × Word)
  /-- Live strands by number (R76). -/
  strands : List (Nat × Option Strand)
  deriving DecidableEq, Repr

/-! ### Layer feed (08_batts_and_carding) -/

/-- A stream plan as its arming read it (R233, R235): the defaults of CRD#24.DEFAULTS are already substituted. -/
structure Plan where
  base : Nat
  level : Nat
  ctx : Nat
  entries : Nat
  layers : Nat
  chains : Nat
  deadline : Nat
  missTicks : Nat
  retryMax : Nat
  entryOff : Nat
  chainOff : Nat
  layerOff : Nat
  deriving DecidableEq, Repr

/-- Where a batt of the fill layer stands (R238 to R249). -/
inductive BattPhase where
  | absent
  | carding
  /-- Checks 8 and 9 have passed; output bursts are not all acknowledged. -/
  | carded
  /-- Committed at chain positions 0 to `pos`. -/
  | forwarding (pos : Nat)
  | committed
  deriving DecidableEq, Repr

/-- One batt of the fill layer. -/
structure BattSt where
  /-- Its entry index in the plan. -/
  idx : Nat
  phase : BattPhase
  /-- The header of the copy that owns it. -/
  hdr : Bytes
  /-- The cause counted while a retry is pending: 1 server_late, 2 shard_missing, 3 shard_corrupt (R248). -/
  cause : Nat
  /-- Requests sent, and whether the last one is unanswered (R249). -/
  requests : Nat
  pending : Bool
  /-- Consecutive held boundaries at which it counted server_late. -/
  late : Nat
  /-- Tick boundaries since the first failure. -/
  sinceFail : Option Nat
  /-- Past its deadline. -/
  dead : Bool
  deriving DecidableEq, Repr

/-- The layer feed of one partition. -/
structure Feed where
  cur : Option Plan
  next : Option Plan
  /-- An accepted plan that becomes current after the context's next STEP, or at the next boundary (R235). -/
  armed : Option Plan
  /-- DISARM waits for the step boundary. -/
  disarm : Bool
  /-- The streaming context has completed a STEP since the last boundary. -/
  stepDone : Bool
  /-- A remap broke the plan (R235). -/
  invalid : Bool
  /-- The fill step and the fill layer; `fillNext` when the fill layer is layer 0 of the next plan (R246). -/
  fillStep : Nat
  fillLayer : Nat
  fillNext : Bool
  /-- The layer that the compute half holds; none while it is empty. -/
  comp : Option Nat
  /-- The batts of the fill layer, by entry. -/
  batts : List BattSt
  /-- Cores that have arrived at the layer barrier (R245). -/
  arrived : List Nat
  /-- The queue index of the layer mark that the context has reached (R245). -/
  mark : Option Nat
  /-- The barrier has completed, and the close point has sampled that (R324). -/
  done : Bool
  sampled : Bool
  deriving DecidableEq, Repr

/-! ### Fabric, clock and power (07, 12, 13) -/

/-- Fabric: what the FAB registers do not hold. -/
structure Fab where
  /-- Consecutive failed replays per link, keyed switch × 32 + port (R223). -/
  linkFails : List (Nat × Nat)
  /-- Links that hold their traffic after a LINK_FAULT (R223). -/
  linkHeld : List Nat
  /-- Replays this tick per seam group, keyed (tile × 2 + direction) × 4096 + group (R222). -/
  seamReplays : List (Nat × Nat)
  /-- Issued read tags of the migration engine, the hatband and the PCIe links (R219). -/
  tags : List Nat
  /-- Write bursts committed and not yet acknowledged, oldest first: source port, address and bytes (R84, R216, R220). -/
  writes : List (Nat × Nat × Nat)
  /-- The largest latency of this tick (R226). -/
  latMax : Nat
  /-- Links or slices that were hot in this tick, for R193 and R212: partitions with a request waiting there. -/
  hotParts : List Nat
  deriving DecidableEq, Repr

/-- Clock crossings: sides that are in reset, waiting for FLUSH_DONE (R360), and stopped clocks (R359). -/
structure Clk where
  inReset : List Nat
  stopped : List Nat
  /-- The GTC at which the interval of the latest step of CURRENT ends (R353). -/
  stepEnd : Nat
  deriving DecidableEq, Repr

/-- Power and cooling: what the PWR and THM registers do not hold. -/
structure Pwr where
  /-- 48 V present, EPO_N asserted. -/
  present : Bool
  epo : Bool
  /-- The two-wire status bits latched for STATUS_WORD (R375). -/
  pmStatus : Nat
  /-- A thermal cap and an undervoltage cap in force, in 10 W; 0 for none (R372). -/
  capThermal : Nat
  capUnder : Nat
  /-- A duty required by R374 gates issue because no boundary came (R371). -/
  capGate : Bool
  /-- Consecutive gauge samples within 10 % (R378). -/
  gaugeGood : Nat
  /-- The bank has been full since the module left OFF (R377). -/
  wasFull : Bool
  /-- Tiles whose duty falls or has fallen for a junction at or above WARN: true until every sensor is below WARN − 3 °C (R383). -/
  warnTile : List (Nat × Bool)
  /-- The duty that a tile's thermal state allows (R371, R383); 16 where unlisted. -/
  heatDuty : List (Nat × Nat)
  /-- Tiles whose VHB, VSRAM or VDRAM groups or sweatband are limited for service (R384). -/
  sweatTiles : List Nat
  deriving DecidableEq, Repr

/-! ### Management (15_management_and_observation) -/

/-- A BAR2 access through an aperture of another module (R432): its link, whether it writes, the answers still to come, what the earlier
ones brought, and whether one of them failed. -/
structure RemoteWait where
  link : Nat
  write : Bool
  left : Nat
  data : Bytes
  bad : Bool
  deriving DecidableEq, Repr

/-- Management: what the TEL, TRC and LIC registers do not hold. -/
structure Mgmt where
  /-- LAST_SEQ is TEL.MGMT_SEQ. Managers that have subscribed (R436). -/
  subscribed : List Nat
  /-- Staged key words of LIC.KEY_DATA, in order (R474). -/
  keyWords : List Word
  /-- Frames assembled since bring-up (R439). -/
  frameSeq : Nat
  /-- Counter values at the previous frame, for the deltas (R439): keyed as `live`. -/
  prev : List (Nat × Word64)
  /-- Lowest signed slack per partition since the previous frame (R439). -/
  lowSlack : List (Nat × Option Int)
  /-- Ticks since the last frame. -/
  sinceFrame : Nat
  /-- BAR2 accesses that wait for another module's answers, oldest first (R432). -/
  remote : List RemoteWait
  deriving DecidableEq, Repr

/-! ### Fulling trees (09_fulling) -/

/-- What one contributor of a tree has delivered (R264, R267, R271): 0 the module itself, k + 1 child k. -/
structure Contrib where
  /-- Its segments at or above the release point. -/
  segs : List Nat
  /-- Its END: CONTRIB, SAT, NONFINITE. -/
  ended : Option (Nat × Nat × Nat)
  deriving DecidableEq, Repr

/-- One reduction tree: what its FUL slot registers do not hold (R256 to R276), by tree number. -/
structure Tree where
  /-- TREE_CFG, TREE_PARENT, TREE_WINDOW and TREE_CHILD0 to 7 in effect; writes take effect while no invocation is open (R279).
  Empty for the registers' reset values. -/
  applied : List Word
  /-- FULL_REDUCE operators in flight, context and queue index, oldest first, and the oldest one's segments not yet sent (R261). -/
  ops : List (Nat × Nat)
  left : List Nat
  isOpen : Bool
  /-- An invocation has been opened since the last reset, and the open or last one's name (R259). -/
  seen : Bool
  step : Nat
  attempt : Nat
  /-- Group exponent and tensor elements (R259). -/
  e : Int
  elements : Nat
  /-- LEVEL of the local FULL_REDUCE descriptor; 0 without one (R275). -/
  level : Nat
  contribs : List Contrib
  /-- Sums by segment at or above the release point (R263). -/
  sums : List (Nat × List Int)
  /-- Segments that a child delivered at WIDTH 1 (R275). -/
  wide : List Nat
  /-- The next segment to send up, or down at the top of a KIND 1 tree; the next DOWN segment to deliver (R264). -/
  up : Nat
  down : Nat
  /-- DOWN segments that wait for a lower one. -/
  results : List (Nat × List Int)
  /-- The totals of a DOWN_END: CONTRIB, SAT, NONFINITE (R267). -/
  downEnd : Option (Nat × Nat × Nat)
  /-- The release point, its value at the last WIN sent, and the last INDEX received from the parent (R264, R265). -/
  released : Nat
  winAt : Nat
  winParent : Nat
  endSent : Bool
  /-- Saturations and nonfinite elements of the local conversion (R261). -/
  localSat : Nat
  localNf : Nat
  /-- The lowest incomplete segment and the boundaries since it became that; the same for the DOWN segment awaited (R271). -/
  watch : Option (Nat × Nat)
  downWatch : Option (Nat × Nat)
  /-- The deadline has fired. -/
  dead : Bool
  /-- Check sums of this attempt and of the aborted one, keyed contributor × 2^32 + segment (R276). -/
  crcs : List (Nat × Nat)
  audit : List (Nat × Nat)
  deriving DecidableEq, Repr

/-! ### Hatband and Nolino (10_hatband_and_nolino) -/

/-- A DATA flit before it has a SEQ: class, first and last of its message, payload units, payload and the message's GMSN. -/
structure TxFlit where
  cls : Nat
  som : Bool
  eom : Bool
  valid : Nat
  payload : Bytes
  gmsn : Nat
  deriving DecidableEq, Repr

/-- One link engine: what its HB page does not hold. -/
structure Engine where
  /-- SEQ of the next new flit, and the next expected SEQ (R292, R293). -/
  txSeq : Nat
  rxSeq : Nat
  /-- Flits that wait for a credit or for room in the replay buffer, oldest first. -/
  queue : List TxFlit
  /-- Flits sent and not acknowledged, oldest first, by SEQ (R292). -/
  replay : List (Nat × TxFlit)
  /-- New flits sent, flits the far receiver has freed, and flits freed here, by class and modulo 4,096 (R297). -/
  sent : List Nat
  granted : List Nat
  freed : List Nat
  /-- The class whose count the next flit carries (R297). -/
  crNext : Nat
  /-- REPLAY_REQ has been sent and the expected SEQ has not yet arrived (R293). -/
  asked : Bool
  /-- Consecutive replay failures (R296). -/
  replayFails : Nat
  /-- A lane swap has been asked for and eight further failures take the engine down (R310). -/
  swapped : Bool
  /-- Trained spares of each direction, ascending (R310). -/
  txSpare : List Nat
  rxSpare : List Nat
  /-- Lanes of each direction that retrain, and the failed attempts by lane, keyed direction × 18 + lane (R310). -/
  txRetrain : List Nat
  rxRetrain : List Nat
  attempts : List (Nat × Nat)
  /-- Map versions and lane maps of each direction (R310): the lane of each stripe. -/
  txVersion : Nat
  rxVersion : Nat
  txMap : List Nat
  rxMap : List Nat
  /-- Bytes of the message in assembly, by class (R298). -/
  partials : List (Nat × Bytes)
  deriving DecidableEq, Repr

/-- A message sent: class, SUBKIND, GMSN, body and the engine that carries it. -/
structure SentMsg where
  cls : Nat
  sub : Nat
  gmsn : Nat
  body : Bytes
  engine : Nat
  deriving DecidableEq, Repr

/-- One engine group: what its NOL page does not hold. -/
structure Group where
  /-- GMSN of the next message of each class (R298). -/
  txGmsn : List Nat
  /-- The lowest GMSN of each class not yet delivered, and the numbers delivered above it (R299). -/
  rxLow : List Nat
  rxSeen : List (List Nat)
  /-- Messages whose EOM flit is not acknowledged (R299, R311), and messages that wait for the window: class, SUBKIND, body. -/
  unacked : List SentMsg
  waiting : List (Nat × Nat × Bytes)
  /-- The far OFFER of this negotiation, and the LEVEL and FEATURES of the ACCEPT sent and of the ACCEPT received (R303). -/
  offer : Option Bytes
  sentAccept : Option (Nat × Nat)
  gotAccept : Option (Nat × Nat)
  /-- LEVEL and FEATURES of the session that closed (R306). -/
  last : Option (Nat × Nat)
  deriving DecidableEq, Repr

/-- A tier 3 read that waits for its RDATA (R495): who asked, what it names, and the request's ATTEMPT. -/
structure RRead where
  tag : Nat
  core : Nat
  ctx : Nat
  remote : Nat
  offset : Nat
  len : Nat
  attempt : Nat
  deriving DecidableEq, Repr

/-- The hatband. -/
structure Net where
  engines : List (Nat × Engine)
  groups : List (Nat × Group)
  rreads : List RRead
  /-- The engine group that the last batt request or RREAD of each server group used (R287). -/
  turn : List (Nat × Nat)
  deriving DecidableEq, Repr

/-! ### Tick, crown and roles (11_tick_and_roles) -/

/-- A pending target of an ABORT (R338). -/
structure Abort where
  step : Nat
  attempt : Nat
  reason : Nat
  target : Nat
  deriving DecidableEq, Repr

/-- What TK's and ROLE's registers do not hold. -/
structure Crown where
  /-- GTC of grid point 0 as TK.ORIGIN shows it (R322). -/
  origin : Nat
  /-- The current tick number, and the grid point that anchors the local grid: its tick, its GTC and the period from there on
  (R322, R333, R334). -/
  tick : Nat
  baseTick : Nat
  base : Nat
  period : Nat
  /-- The grid follows a crown's (R333). -/
  follows : Bool
  /-- A grid point of the crown that the grid moves onto at the next step boundary: its tick, GTC and period (R334). -/
  moveTo : Option (Nat × Nat × Nat)
  /-- Racks by job rank, as REMAPs have named them (R331). -/
  members : List (Nat × Nat)
  /-- The job barrier: its identifier, the own partition barrier done, and the arrivals of each child's group (R337). -/
  barId : Option Nat
  barOwn : Bool
  barKids : List (Nat × Nat)
  /-- The release instant in local GTC. -/
  releaseAt : Option Nat
  /-- Aborts that wait for their target (R338), and the boundary at which the replay starts. -/
  aborts : List Abort
  resumeAt : Option Nat
  /-- REMAP bodies that wait (R340, R341). -/
  remaps : List Bytes
  /-- Target ticks of SNAPSHOT and GROUP_RESET (R337). -/
  snaps : List Nat
  resets : List Nat
  /-- A handover: the other end's rack, whether this module is the candidate, and the target tick once committed (R342). -/
  swapRack : Nat
  candidate : Bool
  swapAt : Option Nat
  /-- The tick of the last ROLE_CONFLICT met here (R343). -/
  conflictAt : Option Nat
  /-- One-way delay of the parent link in local cycles, the transmission time of an open DELAY_REQ, and the last SYNC as crown
  GTC and local GTC (R333). -/
  delay : Nat
  delaySent : Option Nat
  lastSync : Option (Nat × Nat)
  /-- The crown's period in its own cycles, from SYNC. -/
  crownPer : Nat
  /-- A context has completed a STEP since the last boundary that was not held: the coming boundary is a step boundary (R340). -/
  stepEnd : Bool
  /-- The close point of the coming grid point has sampled (R324). -/
  closed : Bool
  /-- Grid points in a row without a SYNC, the crown is lost, the deputy too (R344). -/
  syncLost : Nat
  lost : Bool
  deputyLost : Bool
  deriving DecidableEq, Repr

/-! ### The machine -/

/-- The machine. -/
structure State where
  /-- The commands that wait, first in, first out. -/
  pending : List Instr
  /-- The model's own field: how many free values have been drawn (notes/assumptions/2.md). -/
  freeCtr : Nat
  board : Board
  /-- The bytes of the unified range and the reserve region, as cells by address; an unlisted byte reads 0. -/
  mem : List Host.Cell
  store : Store
  bup : Bup
  tier : Tier
  ctxs : List (Nat × Ctx)
  parts : List (Nat × Part)
  cores : List (Nat × Core)
  feeds : List (Nat × Feed)
  trees : List (Nat × Tree)
  net : Net
  crown : Crown
  fab : Fab
  clk : Clk
  pwr : Pwr
  mgmt : Mgmt
  deriving DecidableEq, Repr

/-- The machine has no faults of its own: every command of the table has an effect. -/
inductive Fault where
  deriving DecidableEq, Repr

/-- Why a command has no meaning. -/
inductive Refusal where
  /-- Raised by Dispatch for a command that is not modelled yet. Safe: the model stops. -/
  | notModelled (mnemonic : String)
  deriving DecidableEq, Repr

/-! ### Reset -/

/-- Nothing recorded, nothing sent, every register at its table's reset value, in STANDBY (R422: STATE resets to 1). -/
def Board.reset : Board :=
  { gtc := 0, on := [], regs := [], live := [], snap := [], evCls := [], latch := [], msix := [], holding := false,
    heldBack := false, ringC := ⟨[], 0⟩, ringB := ⟨[], 0⟩, coal := [], toShelf := [], shelfLog := [], traces := [],
    image := [], out := [] }

/-- A TD3-X with serial 0, no defect, an empty configuration store, empty key slots (DESIGN CHOICE, notes/assumptions/3.md). -/
def Store.reset : Store :=
  { variant := 0, serial := 0, factory := [], fieldLog := [], fieldStaged := [], logValid := true, lifeBringups := 0,
    quickSince := 0, reached := false, bankA := [], bankB := [], keys := List.replicate 8 ⟨[], false⟩,
    oldKeys := [none, none], fwVersion := 0, fwBuild := 0, lastOff := 0 }

/-- No map merged yet, nothing staged, nothing accepted. -/
def Bup.reset : Bup :=
  { merged := [], sinceMerge := [], extra := [], applied := [], topo := none, staging := [], stagingOver := false, accepted := 0, served := false,
    resetPending := false, afterReset := false, toService := false, regrid := false, powerOn := false,
    heldAbort := false }

/-- Nothing mapped, nothing queued. -/
def Tier.reset : Tier :=
  { map := [], changes := [], freeing := [], used0 := [], used1 := [], retired0 := [], retired1 := [],
    cmdQ := [], cmdRun := none, cmdFrames := [], migQ := [], fly := [],
    hoods := [], loads := [], remote := [], ueCount := [], nextObject := 1, pounceWs := 0,
    pounceSlc := 0, pounceDrm := 0 }

/-- No engine or group has done anything. -/
def Net.reset : Net := { engines := [], groups := [], rreads := [], turn := [] }

/-- No grid, no crown. -/
def Crown.reset : Crown :=
  { origin := 0, tick := 0, baseTick := 0, base := 0, period := 0, follows := false, moveTo := none, members := [], barId := none,
    barOwn := false, barKids := [], releaseAt := none, aborts := [], resumeAt := none, remaps := [], snaps := [], resets := [],
    swapRack := 0, candidate := false, swapAt := none, conflictAt := none, delay := 0, delaySent := none, lastSync := none, crownPer := 0, stepEnd := false, closed := false,
    syncLost := 0, lost := false, deputyLost := false }

/-- The machine right after reset: STANDBY, only the always-on domain powered. -/
def State.reset : State :=
  { pending := [], freeCtr := 0, board := Board.reset, mem := [], store := Store.reset, bup := Bup.reset, tier := Tier.reset,
    ctxs := [], parts := [], cores := [], feeds := [], trees := [], net := Net.reset, crown := Crown.reset,
    fab := { linkFails := [], linkHeld := [], seamReplays := [], tags := [], writes := [], latMax := 0, hotParts := [] },
    clk := { inReset := [], stopped := [], stepEnd := 0 },
    pwr := { present := true, epo := false, pmStatus := 0, capThermal := 0, capUnder := 0, capGate := false, gaugeGood := 0,
             wasFull := false, warnTile := [], heatDuty := [], sweatTiles := [] },
    mgmt := { subscribed := [], keyWords := [], frameSeq := 0, prev := [], lowSlack := [], sinceFrame := 0, remote := [] } }

end Sys2Proof.Machine
end

