-- ==== Sys2Proof/Machine/Ops.lean ====
section
/-! DEFINITION. The named operations over the register file, the counters and memory that every chapter's meanings use. -/
namespace Sys2Proof.Machine

/-! ### The page map (R456) -/

namespace Pg
def mod : Nat := 0x000
def lic : Nat := 0x001
def evt : Nat := 0x002
def tk : Nat := 0x010
def role : Nat := 0x011
def opq0 : Nat := 0x020
/-- OPQ#i, i from 1 to 16. -/
def opq (i : Nat) : Nat := 0x020 + i
def mem : Nat := 0x040
def shf : Nat := 0x041
def fabSpine : Nat := 0x050
def crdGlobal : Nat := 0x051
def ful (q : Nat) : Nat := 0x052 + q
def hbGlobal : Nat := 0x056
def nol (g : Nat) : Nat := 0x060 + g
def clk : Nat := 0x070
def pwr : Nat := 0x080
def thm : Nat := 0x081
def bup : Nat := 0x090
def fus : Nat := 0x091
def tel : Nat := 0x0A0
def trc : Nat := 0x0A1
def core (c : Nat) : Nat := 0x100 + 16 * (c / 4) + c % 4
def spx (c : Nat) : Nat := 0x104 + 16 * (c / 4) + c % 4
def slc (t : Nat) : Nat := 0x108 + 16 * t
def fabTile (t : Nat) : Nat := 0x109 + 16 * t
def crdTile (t : Nat) : Nat := 0x10A + 16 * t
def pwrTile (t : Nat) : Nat := 0x10B + 16 * t
def hb (e : Nat) : Nat := 0x280 + e
def drm (s : Nat) : Nat := 0x2C0 + s
end Pg

/-- The layout and instance of a tile's pages 0x100 to 0x27F. -/
def tilePageKind (t k : Nat) : PageKind × Nat :=
  if k < 4 then (.core, 4 * t + k)
  else if k < 8 then (.spx, 4 * t + (k - 4))
  else if k = 8 then (.slc, t)
  else if k = 9 then (.fabTile, t)
  else if k = 10 then (.crdTile, t)
  else if k = 11 then (.pwrTile, t)
  else (.reserved, 0)

/-- The layout and instance of every page (R456). -/
def pageInfo (p : Nat) : PageKind × Nat :=
  if p < 0x100 then
    if p = 0x000 then (.mod, 0)
    else if p = 0x001 then (.lic, 0)
    else if p = 0x002 then (.evt, 0)
    else if p = 0x010 then (.tk, 0)
    else if p = 0x011 then (.role, 0)
    else if p = 0x020 then (.opq0, 0)
    else if 0x021 ≤ p ∧ p ≤ 0x030 then (.opq, p - 0x020)
    else if p = 0x040 then (.mem, 0)
    else if p = 0x041 then (.shf, 0)
    else if p = 0x050 then (.fabSpine, 24)
    else if p = 0x051 then (.crdGlobal, 24)
    else if 0x052 ≤ p ∧ p ≤ 0x055 then (.ful, p - 0x052)
    else if p = 0x056 then (.hbGlobal, 48)
    else if 0x060 ≤ p ∧ p ≤ 0x06B then (.nol, p - 0x060)
    else if p = 0x070 then (.clk, 0)
    else if p = 0x080 then (.pwrGlobal, 24)
    else if p = 0x081 then (.thm, 0)
    else if p = 0x090 then (.bup, 0)
    else if p = 0x091 then (.fus, 0)
    else if p = 0x0A0 then (.tel, 0)
    else if p = 0x0A1 then (.trc, 0)
    else if p = 0x0F0 then (.msixTable, 0)
    else if p = 0x0F1 then (.msixPba, 0)
    else (.reserved, 0)
  else if p < 0x280 then tilePageKind ((p - 0x100) / 16) ((p - 0x100) % 16)
  else if p < 0x2B0 then (.hb, p - 0x280)
  else if 0x2C0 ≤ p ∧ p < 0x320 then (.drm, p - 0x2C0)
  else (.reserved, 0)

/-- The layout of a page. -/
def pageKindOf (p : Nat) : PageKind := (pageInfo p).1

/-- The block type of a layout: the page index of the lowest-numbered page that carries it (R456). -/
def PageKind.blockType : PageKind → Nat
  | .mod => 0x000 | .lic => 0x001 | .evt => 0x002 | .tk => 0x010 | .role => 0x011 | .opq0 => 0x020
  | .opq => 0x020 | .mem => 0x040 | .shf => 0x041 | .fabSpine => 0x050 | .crdGlobal => 0x051 | .ful => 0x052
  | .hbGlobal => 0x056 | .nol => 0x060 | .clk => 0x070 | .pwrGlobal => 0x080 | .thm => 0x081 | .bup => 0x090
  | .fus => 0x091 | .tel => 0x0A0 | .trc => 0x0A1 | .core => 0x100 | .spx => 0x104 | .slc => 0x108
  | .fabTile => 0x109 | .crdTile => 0x10A | .pwrTile => 0x10B | .hb => 0x280 | .drm => 0x2C0
  | .msixTable => 0 | .msixPba => 0 | .reserved => 0

/-- PAGE_LEVEL.LOWEST of a layout (R456). -/
def PageKind.lowest : PageKind → Nat
  | .mem => 3
  | .shf => 2
  | _ => 1

/-- A page that stays powered in every state except OFF (R466). -/
def alwaysOn (k : PageKind) : Bool :=
  match k with
  | .mod | .lic | .evt | .bup | .fus | .pwrGlobal | .pwrTile | .thm | .tel | .trc => true
  | _ => false

/-- The power domain of a page, by its slot of R369: 0 DRAM base, 1 and 2 the spine halves, 3 the shelf, 4 + t tile fabrics,
28 + c cores, 124 + q hatband quadrants; none for the always-on pages. TK, ROLE, OPQ, MEM, FAB#24, CRD#24, HB#48 and CLK are
taken with the north spine half (PRESUMED, notes/assumptions/6.md). -/
def domainOf (p : Nat) : Option Nat :=
  let (k, i) := pageInfo p
  match k with
  | .tk | .role | .opq0 | .opq | .mem | .fabSpine | .crdGlobal | .hbGlobal | .clk => some 1
  | .shf => some 3
  | .ful => some (124 + i)
  | .nol => some (124 + i / 3)
  | .core | .spx => some (28 + i)
  | .slc | .fabTile | .crdTile => some (4 + i)
  | .hb => some (124 + i / 12)
  | .drm => some 0
  | _ => none

/-! ### Register words -/

/-- Where a register word is kept. -/
def regKey (page off : Nat) : Nat := page * 1024 + off / 4

/-- Whether a table row has a field in the word at `off`. -/
def FieldRow.hits (r : FieldRow) (off : Nat) : Bool :=
  if off < r.off then false
  else if r.count ≤ 1 then decide (off = r.off)
  else decide ((off - r.off) % r.stride = 0) && decide ((off - r.off) / r.stride < r.count)

/-- The rows of the table with a field in a page's word at `off`. -/
def fieldsAt (k : PageKind) (off : Nat) : List FieldRow := (rowsOf k).filter (fun r => r.hits off)

/-- The reset value of a word: its fields' Reset columns together. -/
def resetWord (k : PageKind) (off : Nat) : Word :=
  BitVec.ofNat 32 ((fieldsAt k off).foldl (fun a r => a + (r.reset % 2 ^ (r.msb + 1 - r.lsb)) <<< r.lsb) 0)

/-- What an unlisted register word reads as. -/
def regDefault (k : Nat) : Word := resetWord (pageKindOf (k / 1024)) (4 * (k % 1024))

/-- The stored word of a register. -/
def Board.rd (b : Board) (page off : Nat) : Word := Tbl.get regDefault b.regs (regKey page off)

/-- Stores a register word. -/
def Board.wr (b : Board) (page off : Nat) (w : Word) : Board := { b with regs := Tbl.set regDefault b.regs (regKey page off) w }

/-- The value of a register field. -/
def Board.fld (b : Board) (page : Nat) (f : Fld) : Nat := fget (b.rd page f.off) f

/-- Sets a register field. -/
def Board.setFld (b : Board) (page : Nat) (f : Fld) (v : Nat) : Board := b.wr page f.off (fset (b.rd page f.off) f v)

/-- Sets several fields of a page. -/
def Board.setFlds (b : Board) (page : Nat) (l : List (Fld × Nat)) : Board := l.foldl (fun b x => b.setFld page x.1 x.2) b

/-- A one-bit field. -/
def Board.flag (b : Board) (page : Nat) (f : Fld) : Bool := decide (b.fld page f ≠ 0)

/-- A 64-bit value kept in two words, the low one first. -/
def Board.rd64 (b : Board) (page off : Nat) : Nat := (b.rd page off).toNat + 2 ^ 32 * (b.rd page (off + 4)).toNat

/-- Stores a 64-bit value in two words. -/
def Board.wr64 (b : Board) (page off v : Nat) : Board :=
  (b.wr page off (BitVec.ofNat 32 v)).wr page (off + 4) (BitVec.ofNat 32 (v / 2 ^ 32))

/-- Every register of a page back to its reset value. -/
def Board.resetPage (b : Board) (page : Nat) : Board := { b with regs := Tbl.clearRange b.regs (page * 1024) (page * 1024 + 1024) }

/-! ### Counters (R458) -/

/-- Where a counter is kept. -/
def cntKey (page off : Nat) : Nat := page * 128 + (off - 0x800) / 8

/-- An unlisted counter reads 0. -/
def zero64 (_ : Nat) : Word64 := 0

/-- The live value of a counter. -/
def Board.cnt (b : Board) (page off : Nat) : Nat := (Tbl.get zero64 b.live (cntKey page off)).toNat

/-- Stores a counter's live value. -/
def Board.setCnt (b : Board) (page off v : Nat) : Board := { b with live := Tbl.set zero64 b.live (cntKey page off) (BitVec.ofNat 64 v) }

/-- Adds to a counter, modulo 2^64. -/
def Board.inc (b : Board) (page off n : Nat) : Board := b.setCnt page off (b.cnt page off + n)

/-- Counters of a page back to 0, live and copied. -/
def Board.resetCounters (b : Board) (page : Nat) : Board :=
  { b with live := Tbl.clearRange b.live (page * 128) (page * 128 + 128)
           snap := Tbl.clearRange b.snap (page * 128) (page * 128 + 128) }

/-- MOD, BUP and FUS counters are snapshotted at grid points; outside a running grid their snapshot follows the live value
(R424, R427, R470). -/
def followsLive (k : PageKind) : Bool :=
  match k with
  | .mod | .bup | .fus => true
  | _ => false

/-! ### What leaves the module -/

/-- Appends to what the module has sent. -/
def Board.emit (b : Board) (o : Out) : Board := { b with out := b.out ++ [o] }

/-! ### The module state (R391) -/

namespace St
def off : Nat := 0
def standby : Nat := 1
def sequencing : Nat := 2
def calibrating : Nat := 3
def testing : Nat := 4
def training : Nat := 5
def checking : Nat := 6
def held : Nat := 7
def service : Nat := 8
def computeReset : Nat := 9
def faulted : Nat := 10
end St

/-- BUP.STATUS.STATE. -/
def Board.st (b : Board) : Nat := b.fld Pg.bup F.bupStatusState

/-! ### Memory: the bytes of the unified range and of the reserve region -/

/-- What a byte of memory that nothing has written reads as (DESIGN CHOICE, notes/assumptions/7.md: 0). -/
def memDefault (_ : Nat) : Byte := 0

/-- One byte of memory. -/
def memByte (m : List Host.Cell) (a : Nat) : Byte := Tbl.get memDefault m a

/-- `n` bytes from address `a`. -/
def memRead (m : List Host.Cell) (a : Nat) : Nat → Bytes
  | 0 => []
  | n + 1 => memByte m a :: memRead m (a + 1) n

/-- Writes bytes from address `a` up. -/
def memWrite (m : List Host.Cell) (a : Nat) : Bytes → List Host.Cell
  | [] => m
  | b :: r => memWrite (Tbl.set memDefault m a b) (a + 1) r

/-- Every byte of `[lo, hi)` reads 0 again. -/
def memClear (m : List Host.Cell) (lo hi : Nat) : List Host.Cell := Tbl.clearRange m lo hi

/-- The canonical form of memory: addresses strictly rising, no listed byte equal to what an unlisted one reads as. -/
def memWf (m : List Host.Cell) : Bool := Tbl.wf memDefault m

/-! ### The shape of a meaning -/

/-- The next state of a command: its effect, with the queue as the step left it. -/
def done (s t : State) : Host.Outcome State Fault Refusal := .next { t with pending := s.pending }

/-- An effect on the register file alone. -/
def State.onBoard (s : State) (f : Board → Board) : State := { s with board := f s.board }

/-- A free number, and the state with the next one (notes/assumptions/2.md). -/
def State.freeNat (s : State) : Nat × State := (Config.freeNat s.freeCtr, { s with freeCtr := s.freeCtr + 1 })

/-- `n` free bytes. -/
def State.freeBytes (s : State) (n : Nat) : Bytes × State :=
  ((List.range n).map (fun i => Config.freeByte (s.freeCtr + i)), { s with freeCtr := s.freeCtr + n })

/-- Applies an effect for each element in order. -/
def eachIn {α σ : Type} (l : List α) (f : σ → α → σ) (s : σ) : σ := l.foldl f s

/-- Applies an effect when a condition holds. -/
def when {σ : Type} (c : Bool) (f : σ → σ) (s : σ) : σ := if c then f s else s

end Sys2Proof.Machine
end

