-- ==== Sys2Proof/Machine/Flags.lean ====
section
/-! DEFINITION. Events: EVENT bits and their fault classes (R462), records and logs (R442 to R446), trace (R447, R448),
vectors (R435, R457, R478), access and level errors (R463, R465). -/
namespace Sys2Proof.Machine

/-- The code of a fault class (R462). -/
def FClass.code : FClass → Nat
  | .none => 0 | .a => 1 | .b => 2 | .c => 3

/-- Offset of EVENT. -/
def evtOff : Nat := 0x018
/-- Offset of EVENT_EN. -/
def evtEnOff : Nat := 0x01C

/-- Whether an EVENT bit is set. -/
def Board.evBit (b : Board) (page bit : Nat) : Bool := (b.rd page evtOff).toNat.testBit bit

/-- The most severe class of the events that have set a bit since it was last clear, as a code. -/
def Board.bitClass (b : Board) (page bit : Nat) : Nat := Tbl.get (fun _ => 0) b.evCls (page * 16 + bit)

/-- FAULT_CLASS of one bit: the class recorded while it is set, the table's class while it is clear (R462). -/
def Board.classOf (b : Board) (page bit : Nat) : Nat :=
  if b.evBit page bit then max (b.bitClass page bit) (eventClass (pageKindOf page) bit).code
  else (eventClass (pageKindOf page) bit).code

/-- EVENT AND EVENT_EN is nonzero (R476). -/
def Board.pagePending (b : Board) (page : Nat) : Bool := decide ((b.rd page evtOff &&& b.rd page evtEnOff) ≠ 0)

/-- Some class C EVENT bit is set, whatever EVENT_EN holds (R476). -/
def Board.pageCPending (b : Board) (page : Nat) : Bool :=
  (List.range 16).any (fun i => b.evBit page i && decide (b.classOf page i = 3))

/-! ### Vectors (R435, R457) -/

/-- A link's index: 0 for A, 1 for B. -/
def linkIdx : Link → Nat
  | .a => 0 | .b => 1

/-- TEL.STATUS.OWNER as a link index (R433). -/
def Board.owner (b : Board) : Option Nat :=
  match b.fld Pg.tel F.telStatusOwner with
  | 1 => some 0
  | 2 => some 1
  | _ => none

/-- Where a word of a link's MSI-X page is kept. -/
def msixKey (link : Nat) (pba : Bool) (off : Nat) : Nat := link * 2048 + b2n pba * 1024 + off / 4

/-- An MSI-X vector control word resets with its mask bit set, every other word to 0 (PRESUMED from the PCI Express Base
Specification that R457 names, notes/assumptions/8.md). -/
def msixDefault (k : Nat) : Word := if k % 2048 < 80 ∧ k % 4 = 3 then 1 else 0

/-- A word of a link's MSI-X pages. -/
def Board.msixRd (b : Board) (link : Nat) (pba : Bool) (off : Nat) : Word := Tbl.get msixDefault b.msix (msixKey link pba off)

/-- Stores a word of a link's MSI-X pages. -/
def Board.msixWr (b : Board) (link : Nat) (pba : Bool) (off : Nat) (w : Word) : Board :=
  { b with msix := Tbl.set msixDefault b.msix (msixKey link pba off) w }

/-- Signals a vector on a link: a masked entry sets its pending bit instead of sending. -/
def Board.signalOn (b : Board) (link vec : Nat) : Board :=
  if (b.msixRd link false (16 * vec + 12)).getLsbD 0 then
    b.msixWr link true 0 (b.msixRd link true 0 ||| BitVec.ofNat 32 (1 <<< vec))
  else b.emit (.vector link vec)

/-- Vectors 0 to 18 go to the owning link only (R435). -/
def Board.signal (b : Board) (vec : Nat) : Board :=
  match b.owner with
  | some l => b.signalOn l vec
  | none => b

/-- Vector 19 goes to both links (R435). -/
def Board.signalBoth (b : Board) : Board := (b.signalOn 0 19).signalOn 1 19

/-- Vector 0 under HOLDOFF: a rise within HOLDOFF of the last message is held back (R478). -/
def Board.signal0 (b : Board) : Board :=
  match b.owner with
  | none => b
  | some l =>
    if b.holding then { b with heldBack := true }
    else { b.signalOn l 0 with holding := decide (b.fld Pg.evt F.evtHoldoffUs ≠ 0), heldBack := false }

/-- Vector 0 for a rise of a page's PEND bit with IRQ_EN set, or of its CPEND bit (R478). -/
def Board.pendRise (before after : Board) (page : Nat) : Board :=
  let p := !before.pagePending page && after.pagePending page && after.flag Pg.evt F.evtControlIrqEn
  let c := !before.pageCPending page && after.pageCPending page
  if p || c then after.signal0 else after

/-- Some page is pending while IRQ_EN is 1, or some page is class C pending. -/
def Board.anyPending (b : Board) : Bool :=
  let ps := (List.range 0x320)
  (b.flag Pg.evt F.evtControlIrqEn && ps.any b.pagePending) || ps.any b.pageCPending

/-- Sets EVENT bits of a page with their class code, without records. -/
def Board.setEvent (b : Board) (page bit cls : Nat) : Board :=
  let old := if b.evBit page bit then b.bitClass page bit else 0
  let b1 := b.wr page evtOff (BitVec.ofNat 32 (setBit (b.rd page evtOff).toNat bit))
  b.pendRise { b1 with evCls := Tbl.set (fun _ => 0) b1.evCls (page * 16 + bit) (max old cls) } page

/-! ### Records and logs (R442 to R446) -/

/-- The cause or last-fault register of a page, as a record's DETAIL (R442); a page without one gives 0 (DESIGN CHOICE,
notes/assumptions/9.md). -/
def Board.detailOf (b : Board) (page : Nat) : Nat :=
  match pageKindOf page with
  | .mod => (b.rd page F.modAccessLastPage.off).toNat
  | .lic => (b.rd page F.licLicFailCause.off).toNat
  | .role => (b.rd page F.roleLastAbortStepStep.off).toNat + 2 ^ 32 * (b.rd page F.roleLastAbortAttempt.off).toNat
  | .mem => (b.rd page F.memStallLastCause.off).toNat
  | .slc => (b.rd page F.slcHotLastSlice.off).toNat
  | .fabSpine => (b.rd page F.fabSpineHotLinkSwitch.off).toNat
  | .crdGlobal => (b.rd page F.crdGlobalLastFailIdBattId.off).toNat + 2 ^ 32 * (b.rd page F.crdGlobalLastFailLayer.off).toNat
  | .hb => (b.rd page F.hbLastRetrainLane.off).toNat
  | .nol => (b.rd page F.nolRefuseCauseCause.off).toNat
  | .clk => (b.rd page F.clkLastFaultKind.off).toNat
  | .bup => (b.rd page F.bupHeldCauseCauses.off).toNat
  | _ => 0

/-- The tile that records a page's events; 24 for module-level pages (R442). -/
def tileOf (page : Nat) : Nat :=
  match pageInfo page with
  | (.core, i) | (.spx, i) => i / 4
  | (.slc, i) | (.fabTile, i) | (.crdTile, i) | (.pwrTile, i) => i
  | (.drm, i) => i / 4
  | _ => 24

/-- The record of an event. -/
def Board.mkRec (b : Board) (page bit cls seq : Nat) (first last : Bool) : EvRec :=
  { gtc := b.gtc, page := page, cls := cls, inst := (pageInfo page).2, bit := bit, first := first, last := last,
    tile := tileOf page, count := 1, seq := seq, detail := b.detailOf page }

/-- The capacities and thresholds of R443 and R444. -/
def ringCMax : Nat := 4096
def ringBMax : Nat := 16384
def coalesceAt : Nat := 12288
def resumeBelow : Nat := 8192
def shelfLogMax : Nat := 524288
def traceMax : Nat := 8192

/-- Vector 17 and LOG_FILL when a ring's fill crosses LOG_IRQ.FILL on the way up (R446). -/
def Board.fillCross (b : Board) (before after : Nat) : Board :=
  let f := b.fld Pg.trc F.trcLogIrqFill
  if before < f ∧ f ≤ after then (b.setEvent Pg.trc F.trcEventLogFill.lsb 0).signal 17 else b

/-- Appends a record to a ring. -/
def LogRing.push (r : LogRing) (e : EvRec) : LogRing := { recs := r.recs ++ [{ e with seq := r.wi }], wi := r.wi + 1 }

/-- A class C record (R445): never dropped. -/
def Board.recordC (b : Board) (page bit : Nat) : Board :=
  let e := b.mkRec page bit 3 b.ringC.wi false false
  let b1 := { b with ringC := b.ringC.push e, toShelf := b.toShelf ++ [{ e with seq := b.ringC.wi }] }
  (b1.inc Pg.trc Cn.trcCRecords 1).fillCross b.ringC.recs.length b1.ringC.recs.length

/-- Appends a class B record, or drops and counts it when the ring is full; coalescing begins at 12,288 records (R444). -/
def Board.appendB (b : Board) (e : EvRec) : Board :=
  let n := b.ringB.recs.length
  if n ≥ ringBMax then (b.inc Pg.trc Cn.trcBDropped 1).setEvent Pg.trc F.trcEventBDropped.lsb 0
  else
    let b1 := { b with ringB := b.ringB.push e, toShelf := b.toShelf ++ [{ e with seq := b.ringB.wi }] }
    let b2 := (b1.inc Pg.trc Cn.trcBRecords 1).fillCross n (n + 1)
    if n + 1 ≥ coalesceAt ∧ b2.fld Pg.trc F.trcStatusBCoalescing = 0 then
      { b2.setFld Pg.trc F.trcStatusBCoalescing 1 with coal := [] }
    else b2

/-- The coalescing entry of a cause. -/
def Board.coalOf (b : Board) (page bit : Nat) : Option Coal := b.coal.find? (fun c => c.page == page && c.bit == bit)

/-- Replaces the coalescing entry of a cause. -/
def Board.setCoal (b : Board) (page bit : Nat) (l : Option Nat) : Board :=
  { b with coal := b.coal.filter (fun c => !(c.page == page && c.bit == bit)) ++ [⟨page, bit, l⟩] }

/-- A class B record, coalesced by cause while the ring coalesces (R444). -/
def Board.recordB (b : Board) (page bit : Nat) : Board :=
  let w := b.ringB.wi
  if b.fld Pg.trc F.trcStatusBCoalescing = 0 then b.appendB (b.mkRec page bit 2 w false false)
  else
    match b.coalOf page bit with
    | none => (b.appendB (b.mkRec page bit 2 w true false)).setCoal page bit none
    | some c =>
      let b1 := b.inc Pg.trc Cn.trcBCoalesced 1
      match c.last with
      | none => (b1.appendB (b.mkRec page bit 2 w false true)).setCoal page bit (some w)
      | some q =>
        if b1.ringB.recs.any (fun r => r.seq == q) then
          let e := b.mkRec page bit 2 q false true
          { b1 with ringB := { b1.ringB with recs := b1.ringB.recs.map (fun r => if r.seq == q then { e with count := r.count + 1 } else r) } }
        else (b1.appendB (b.mkRec page bit 2 w false true)).setCoal page bit (some w)

/-- An event of a class on a page's EVENT bit (R442, R445): class A is folded into TRC.A_FOLDED, each class B event makes a
record, a class C event makes one when no class C event has set the bit since it was last clear. -/
def Board.raiseAs (b : Board) (page bit : Nat) (cls : FClass) : Board :=
  let freshC := !(b.evBit page bit && decide (b.bitClass page bit = 3))
  let b1 := b.setEvent page bit cls.code
  match cls with
  | .none => b1
  | .a => b1.inc Pg.trc Cn.trcAFolded 1
  | .b => b1.recordB page bit
  | .c => if freshC then b1.recordC page bit else b1

/-- An event of the class that the page's table gives. -/
def Board.raise (b : Board) (page : Nat) (f : Fld) : Board := b.raiseAs page f.lsb (eventClass (pageKindOf page) f.lsb)

/-- A W1C write to EVENT: a class C bit clears only while the class C ring has a free slot, and is counted otherwise (R445). -/
def Board.clearEvents (b : Board) (page : Nat) (mask : Nat) : Board :=
  let hit := (bitList 16 mask).filter (fun i => b.evBit page i)
  let cbits := hit.filter (fun i => decide (b.classOf page i = 3))
  let full := decide (b.ringC.recs.length ≥ ringCMax)
  let stay := if full then cbits else []
  let b1 := if full && !cbits.isEmpty then b.inc Pg.trc Cn.trcCClearDeferred 1 else b
  let go := hit.filter (fun i => !stay.contains i)
  let w := go.foldl clearBit (b1.rd page evtOff).toNat
  let b2 := b1.wr page evtOff (BitVec.ofNat 32 w)
  { b2 with evCls := go.foldl (fun t i => Tbl.set (fun _ => 0) t (page * 16 + i) 0) b2.evCls }

/-- Host software releases `n` records of the class C ring. -/
def Board.releaseC (b : Board) (n : Nat) : Board := { b with ringC := { b.ringC with recs := b.ringC.recs.drop n } }

/-- Host software releases `n` records of the class B ring; coalescing ends when the fill falls below 8,192 (R444). -/
def Board.releaseB (b : Board) (n : Nat) : Board :=
  let b1 := { b with ringB := { b.ringB with recs := b.ringB.recs.drop n } }
  if b1.ringB.recs.length < resumeBelow then { b1.setFld Pg.trc F.trcStatusBCoalescing 0 with coal := [] } else b1

/-- The shelf programs the records that wait for it (R443). -/
def Board.programLog (b : Board) : Board :=
  let l := b.shelfLog ++ b.toShelf
  ({ b with shelfLog := l.drop (l.length - shelfLogMax), toShelf := [] }).inc Pg.trc Cn.trcShelfLogWrites b.toShelf.length

/-! ### Trace (R447, R448) -/

/-- An empty trace ring. -/
def noTrace (_ : Nat) : TraceRing := ⟨[], 0⟩

/-- Whether the trace of a tile's unit is enabled (R447). -/
def Board.traceOn (b : Board) (tile unit : Nat) : Bool :=
  if unit < 4 then b.flag (Pg.core (4 * tile + unit)) F.coreControlTraceEn
  else if unit = 4 then b.flag Pg.trc F.trcControlCardingEn
  else if unit = 5 then b.flag Pg.trc F.trcControlTilectlEn
  else b.flag Pg.trc F.trcControlXbarEn

/-- Writes a trace record: a full ring overwrites its oldest record, or discards the new one under STOP_ON_FULL (R448). -/
def Board.trace (b : Board) (tile unit kind ctx : Nat) (payload : Bytes) : Board :=
  if !b.traceOn tile unit || !b.on.contains (4 + tile) then b
  else
    let r := Tbl.get noTrace b.traces tile
    let e : TraceRec := ⟨b.gtc, tile, unit, kind, ctx, r.wi, slice payload 0 16⟩
    let full := decide (r.recs.length ≥ traceMax)
    if full && b.flag Pg.trc F.trcControlStopOnFull then
      (b.inc Pg.trc Cn.trcTraceDropped 1).setEvent Pg.trc F.trcEventTraceLost.lsb 0
    else
      let r1 : TraceRing := ⟨(if full then r.recs.drop 1 else r.recs) ++ [e], r.wi + 1⟩
      let b1 := ({ b with traces := Tbl.set noTrace b.traces tile r1 }).inc Pg.trc Cn.trcTraceRecords 1
      if full then (b1.inc Pg.trc Cn.trcTraceOverwritten 1).setEvent Pg.trc F.trcEventTraceLost.lsb 0 else b1

/-! ### Access errors and level events (R463, R465) -/

/-- An access error: cause and source (0 link A, 1 link B, 2 RWB_IMAGE). -/
def Board.accErr (b : Board) (page off cause src : Nat) : Board :=
  ((b.inc Pg.mod Cn.modAccessErrors 1).setFlds Pg.mod
    [(F.modAccessLastPage, page), (F.modAccessLastWord, off / 4), (F.modAccessLastCause, cause), (F.modAccessLastSource, src)]).raise
    Pg.mod F.modEventAccessError

/-- A level event: the nonzero reserved bits of a write. -/
def Board.levelEvt (b : Board) (page off mask src : Nat) : Board :=
  ((b.inc Pg.mod Cn.modLevelWrites 1).setFlds Pg.mod
    [(F.modLevelLastPage, page), (F.modLevelLastWord, off / 4), (F.modLevelLastSource, src), (F.modLevelMaskBits, mask)]).raise
    Pg.mod F.modEventLevelWrite

end Sys2Proof.Machine
end

