-- ==== Sys2Proof/Machine/Units.lean ====
section
/-! DEFINITION. Which units exist and are powered (R285, R369, R466), the gate that every host write passes (R464), and what
one idle cycle does. -/
namespace Sys2Proof.Machine

/-! ### Units of the merged map (R401, R403) -/

/-- Whether the merged map disables a core (kind 1). -/
def coreDisabled (m : List Defect) (c : Nat) : Bool := m.any (fun d => d.kind == 1 && d.unit == c)

/-- An enabled core. -/
def State.coreEnabled (s : State) (c : Nat) : Bool := decide (c < 96) && !coreDisabled s.bup.merged c

/-- The enabled cores, ascending. -/
def State.enabledCores (s : State) : List Nat := (List.range 96).filter s.coreEnabled

/-- Bad lanes of an engine in a direction (kind 8: DETAIL has the direction in bit 8 and the lane in [4:0]). -/
def badLanes (m : List Defect) (e dir : Nat) : List Nat :=
  (List.range 18).filter (fun l => m.any (fun d => d.kind == 8 && d.unit == e && d.detail % 32 == l && bitsOf d.detail 8 8 == dir))

/-- Licensed features in force (R7, R413). -/
def State.feature (s : State) (i : Nat) : Bool := (s.board.fld Pg.mod F.modStatusFeatures).testBit i

/-- The usable engine groups of a configuration (R285). -/
def groupsOf (variant : Nat) (allEngines : Bool) : List Nat :=
  if variant = 0 ∧ allEngines then List.range 12
  else if variant = 2 then [0, 1, 3, 6, 7, 9]
  else [0, 1, 3, 4, 6, 7, 9, 10]

/-- A usable engine group. -/
def State.groupUsable (s : State) (g : Nat) : Bool := (groupsOf s.store.variant (s.feature 0)).contains g

/-- An engine that is usable after both the fuses and the merged map (R285). -/
def State.engineUsable (s : State) (e : Nat) : Bool :=
  decide (e < 48) && s.groupUsable (e / 4) && decide ((badLanes s.bup.merged e 0).length ≤ 2) &&
    decide ((badLanes s.bup.merged e 1).length ≤ 2)

/-- Whether a page's unit is present (R466): pages of disabled cores and of engines that are not usable are absent. -/
def State.present (s : State) (page : Nat) : Bool :=
  match pageInfo page with
  | (.core, i) | (.spx, i) => s.coreEnabled i
  | (.hb, i) => s.engineUsable i
  | (.reserved, _) => false
  | _ => true

/-- Whether a page's power domain is on; nothing is powered in OFF. -/
def State.powered (s : State) (page : Nat) : Bool :=
  decide (s.board.st ≠ St.off) &&
    (match domainOf page with
     | none => true
     | some d => s.board.on.contains d)

/-! ### Clocks (R359) -/

/-- A clock's number in `clk.stopped`. -/
def clockCode : Clock → Nat
  | .osc o => o
  | .dclk s => 100 + s
  | .lane e => 200 + e
  | .pcie .a => 300
  | .pcie .b => 301
  | .shclk => 310
  | .aclk => 311

/-- The sides that reset across a crossing have a clock's code; a switched domain has 400 plus its slot, a compute reset 600. -/
def domSide (d : Nat) : Nat := 400 + d
def computeSide : Nat := 600

/-- The PCIe side of a link. -/
def linkSide (l : Nat) : Nat := 300 + l

/-- A resetting side sends RESET_NOTIFY and holds its half of the crossing in reset (R360 step 1). -/
def State.notify (s : State) (side : Nat) : State :=
  { s with clk := { s.clk with inReset := if s.clk.inReset.contains side then s.clk.inReset else s.clk.inReset ++ [side] }
           board := s.board.emit (.crossing side false) }

/-- ACLK has stopped: the always-on pages do not answer (R393). -/
def State.aclkStopped (s : State) : Bool := s.clk.stopped.contains (clockCode .aclk)

/-- The register pages answer. -/
def State.answers (s : State) : Bool := decide (s.board.st ≠ St.off) && !s.aclkStopped

/-! ### The gate of a host write (R464) -/

/-- The first rows of R464's table: an absent unit ignores the write, a link that does not own the module has it discarded
with cause 3, a unit that is powered off with cause 6; else the write reaches its register. `src` is 0 for link A, 1 for
link B, 2 for the RWB_IMAGE block, which has no owner test. -/
def gateWrite (src page off : Nat) (free : Bool) (act : State → State) (s : State) : State :=
  if !s.present page && !(pageKindOf page == .reserved) then s
  else if src < 2 && !free && !(s.board.owner == some src) then s.onBoard (fun b => b.accErr page off 3 src)
  else if !(pageKindOf page == .reserved) && !s.powered page then s.onBoard (fun b => b.accErr page off 6 src)
  else act s

/-- What a link may write without owning the module: TEL.CLAIM, and its function's MSI-X table and pending bit array (R434, R457). -/
def freeTarget (page off : Nat) : Bool :=
  (page == Pg.tel && off == 0x100) || (page == 0x0F0 && decide (off < 0x140)) || (page == 0x0F1 && decide (off < 8))

/-- A host's 32-bit BAR0 write to a page's register: counted in MOD.BAR0_WRITES, then gated (R464, R470). During a flush only a W1C
write is accepted (R380). -/
def hostAccess (w1c : Bool) (l : Link) (page off : Nat) (act : State → State) (s : State) : State :=
  if !s.answers then s
  else
    gateWrite (linkIdx l) page off (freeTarget page off)
      (fun s => if !w1c && s.board.flag Pg.pwr F.pwrGlobalStatusFlushing then s else act s)
      (s.onBoard (fun b => b.inc Pg.mod Cn.modBar0Writes 1))

/-- A write other than W1C. -/
def hostWrite (l : Link) (page off : Nat) (act : State → State) (s : State) : State := hostAccess false l page off act s

/-! ### The tick and the clocks, as every chapter reads them -/

/-- The mesh is locked, so GTC counts (R323). -/
def Board.meshLocked (b : Board) : Bool := b.flag Pg.clk F.clkStatusMeshLocked

/-- One MCLK cycle passes with no command (DESIGN CHOICE, notes/assumptions/5.md). -/
def idle (s : State) : State := if s.board.meshLocked then { s with board := { s.board with gtc := s.board.gtc + 1 } } else s

/-- The grid runs. -/
def State.gridRuns (s : State) : Bool := s.board.flag Pg.tk F.tkStatusRunning

/-- The module is in SERVICE. -/
def State.inService (s : State) : Bool := decide (s.board.st = St.service)

/-- Cycles for a time in nanoseconds at the current multiplier: MCLK is 50 MHz times MCLK_STATE.CURRENT (R364). -/
def State.cyclesOfNs (s : State) (ns : Nat) : Nat := ns * s.board.fld Pg.clk F.clkMclkStateCurrent / 20

end Sys2Proof.Machine
end

