-- ==== Sys2Proof/Machine/Tiers.lean ====
section
/-! DEFINITION. The unified address range, the tier map and the frames of tiers 0 and 1 (06_memory_tiers: R172 to R181, R404,
R496), class C faults and HELD (R393). -/
namespace Sys2Proof.Machine

/-! ### Module state changes (R391, R393) -/

/-- Sets BUP.STATUS.STATE; a change sets STATE_CHANGED. -/
def Board.setState (b : Board) (n : Nat) : Board :=
  if b.st = n then b else (b.setFld Pg.bup F.bupStatusState n).raise Pg.bup F.bupEventStateChanged

/-- Sets bits of BUP.HELD_CAUSE (R415). -/
def Board.addCause (b : Board) (bit : Nat) : Board :=
  b.setFld Pg.bup F.bupHeldCauseCauses (setBit (b.fld Pg.bup F.bupHeldCauseCauses) bit)

namespace Hc
def classC : Nat := 0
def cfgEmpty : Nat := 1
def cfgHalf : Nat := 2
def cfgBad : Nat := 3
def cfgLevel : Nat := 4
def licence : Nat := 5
def logInvalid : Nat := 6
def belowFloor : Nat := 7
def memory : Nat := 8
def stageTimeout : Nat := 9
def topology : Nat := 10
end Hc

/-- Enters HELD (R416); from SERVICE, in-flight operators end at the next grid point. -/
def State.enterHeld (s : State) : State :=
  let from8 := s.inService
  let b := ((s.board.setState St.held).raise Pg.bup F.bupEventHeldEntered).inc Pg.bup Cn.bupHeldEntries 1
  { s with board := b, bup := { s.bup with heldAbort := s.bup.heldAbort || from8 } }

/-- A class C fault that leads to HELD: at once in SERVICE, else as the cause CLASS_C that CHECKING tests (R393). -/
def State.classC (s : State) (page : Nat) (f : Fld) : State :=
  let s1 := s.onBoard (fun b => (b.raiseAs page f.lsb .c).addCause Hc.classC)
  if s1.inService then s1.enterHeld else s1

/-! ### Addresses (R172) -/

namespace Lay
/-- Bytes of a page. -/
def page : Nat := 2 ^ 21
/-- A core's working store window. -/
def window : Nat := 2 ^ 27
/-- End of the working store windows, and the module reserve. -/
def windowsEnd : Nat := 96 * 2 ^ 27
def reserve : Nat := 0x300000000
def reserveEnd : Nat := 0x320000000
/-- The tier map at the start of the reserve (R175). -/
def mapEnd : Nat := 0x304000000
/-- Hash accumulator spill regions (R178). -/
def spill (c : Nat) : Nat := 0x304000000 + c * 0x400000
/-- Pages of paged space. -/
def firstPage : Nat := 32768
def lastPage : Nat := 4227071
/-- Slice frames of paged space (R178). -/
def frame0Lo : Nat := 256
def frame0Hi : Nat := 18432
end Lay

/-- The page of an address. -/
def pageOf (a : Nat) : Nat := a / Lay.page

/-- A page of paged space. -/
def isPaged (p : Nat) : Bool := decide (Lay.firstPage ≤ p) && decide (p ≤ Lay.lastPage)

/-- A page's tier-map entry. -/
def Tier.entry (t : Tier) (p : Nat) : PageEntry := Tbl.get (fun _ => PageEntry.none) t.map p

/-- Stores a page's tier-map entry. -/
def Tier.setEntry (t : Tier) (p : Nat) (e : PageEntry) : Tier := { t with map := Tbl.set (fun _ => PageEntry.none) t.map p e }

/-- A tier-map entry as its 128 bits (R175). -/
def PageEntry.toNat (e : PageEntry) : Nat :=
  e.tier % 4 + 4 * b2n e.valid + 8 * b2n e.writable + 16 * b2n e.sealed + 32 * b2n e.poison + 64 * b2n e.homeValid +
    256 * (e.ctx % 256) + 2 ^ 16 * (e.frame % 2 ^ 32) + 2 ^ 48 * (e.homeTier % 4) + 2 ^ 64 * (e.object % 2 ^ 32) +
    2 ^ 96 * (e.homeFrame % 2 ^ 32)

/-- The weight-server page behind a page of tier 3, or behind a page whose home is in tier 3: group and page. -/
def PageEntry.server (e : PageEntry) : Option (Nat × Nat) :=
  if !e.valid then Option.none
  else if e.tier = 3 then some (e.frame / 2 ^ 28, e.frame % 2 ^ 28)
  else if e.homeValid && decide (e.homeTier = 3) then some (e.homeFrame / 2 ^ 28, e.homeFrame % 2 ^ 28)
  else Option.none

/-- Where a byte of weight-server space is kept in `tier.remote`. -/
def remoteKey (group a : Nat) : Nat := group * 2 ^ 49 + a

/-- A byte of weight-server space: what RDATA brought, else the open constant (R188). -/
def Tier.serverByte (t : Tier) (group a : Nat) : Byte :=
  match Tbl.get (fun _ => (none : Option Byte)) t.remote (remoteKey group a) with
  | some b => b
  | none => Config.remoteByte group a

/-- The byte that an address reads as: the tier map at the start of the reserve (R175), the server's bytes for remote pages,
else memory. -/
def State.rdByte (s : State) (a : Nat) : Byte :=
  if Lay.reserve ≤ a ∧ a < Lay.mapEnd then
    BitVec.ofNat 8 ((s.tier.entry (Lay.firstPage + (a - Lay.reserve) / 16)).toNat / 256 ^ ((a - Lay.reserve) % 16))
  else
    match (s.tier.entry (pageOf a)).server with
    | some (g, p) => if isPaged (pageOf a) then s.tier.serverByte g (p * Lay.page + a % Lay.page) else memByte s.mem a
    | none => memByte s.mem a

/-- `n` bytes from an address. -/
def State.rdBytes (s : State) (a n : Nat) : Bytes := (List.range n).map (fun i => s.rdByte (a + i))

/-- Writes bytes to memory. -/
def State.wrBytes (s : State) (a : Nat) (bs : Bytes) : State := { s with mem := memWrite s.mem a bs }

/-- Writes a list of (address, bytes). -/
def State.wrAll (s : State) (ws : List (Nat × Bytes)) : State := { s with mem := ws.foldl (fun m w => memWrite m w.1 w.2) s.mem }

/-- The pages that `n` bytes from `a` touch. -/
def pagesOf (a n : Nat) : List Nat := if n = 0 then [] else (List.range (pageOf (a + n - 1) - pageOf a + 1)).map (· + pageOf a)

/-- Does every byte of [a, a + n) exist and is it readable: an enabled core's window, the reserve, or mapped pages that are
not poisoned (R172, R195)? -/
def State.readable (s : State) (a n : Nat) : Bool :=
  if n = 0 then true
  else if a + n ≤ Lay.windowsEnd then
    (List.range ((a + n - 1) / Lay.window - a / Lay.window + 1)).all (fun i => s.coreEnabled (a / Lay.window + i))
  else if Lay.reserve ≤ a ∧ a + n ≤ Lay.reserveEnd then true
  else (pagesOf a n).all (fun p => isPaged p && (s.tier.entry p).valid && !(s.tier.entry p).poison)

/-- Is every byte of [a, a + n) in WRITABLE tier 0 pages of paged space? -/
def State.writablePages (s : State) (a n : Nat) : Bool :=
  (pagesOf a n).all (fun p => isPaged p && (s.tier.entry p).valid && !(s.tier.entry p).poison && (s.tier.entry p).writable)

/-! ### Frames (R178, R180, R404, R496) -/

/-- L, the number of live DRAM channels. -/
def Board.liveChannels (b : Board) : Nat := b.fld Pg.mem F.memLiveChannelsL

/-- Tier 1 frames: 384 × L (R180). -/
def Board.frames1 (b : Board) : Nat := 384 * b.liveChannels

/-- The lowest frame at or above `f` that is neither used nor retired, among the next `fuel`. -/
def firstFree (used : List (Nat × Bool)) (retired : List Nat) (f : Nat) : Nat → Option Nat
  | 0 => none
  | n + 1 => if Tbl.get (fun _ => false) used f || retired.contains f then firstFree used retired (f + 1) n else some f

/-- The lowest free frame of tier 0 or 1 (R496). -/
def State.freeFrame (s : State) (tier : Nat) : Option Nat :=
  if tier = 0 then firstFree s.tier.used0 s.tier.retired0 Lay.frame0Lo (Lay.frame0Hi - Lay.frame0Lo)
  else firstFree s.tier.used1 s.tier.retired1 0 s.board.frames1

/-- Free frames, as MEM publishes them. -/
def State.framesFree (s : State) (tier : Nat) : Nat :=
  if tier = 0 then s.board.fld Pg.mem F.memFramesT0FreeFrames else s.board.fld Pg.mem F.memFramesT1FreeFrames

/-- Marks a frame used or free and keeps MEM.FRAMES_T0_FREE or MEM.FRAMES_T1_FREE. -/
def State.markFrame (s : State) (tier f : Nat) (used : Bool) : State :=
  let was := Tbl.get (fun _ => false) (if tier = 0 then s.tier.used0 else s.tier.used1) f
  let n := s.framesFree tier
  let n1 := if was = used then n else if used then n - 1 else n + 1
  if tier = 0 then
    { s with tier := { s.tier with used0 := Tbl.set (fun _ => false) s.tier.used0 f used }
             board := s.board.setFld Pg.mem F.memFramesT0FreeFrames n1 }
  else if tier = 1 then
    { s with tier := { s.tier with used1 := Tbl.set (fun _ => false) s.tier.used1 f used }
             board := s.board.setFld Pg.mem F.memFramesT1FreeFrames n1 }
  else s

/-- Takes the lowest free frame of a tier. -/
def State.takeFrame (s : State) (tier : Nat) : Option (Nat × State) :=
  match s.freeFrame tier with
  | some f => some (f, s.markFrame tier f true)
  | none => none

/-- A frame becomes free at the second boundary from now (R177). -/
def State.freeLater (s : State) (tier f : Nat) : State :=
  if tier ≤ 1 then { s with tier := { s.tier with freeing := s.tier.freeing ++ [⟨tier, f, 2⟩] } } else s

/-- The offset of R181 and R206. -/
def spread (q n : Nat) : Nat := (q * 0x9E3779B1) % 2 ^ 32 % n

/-- The slice frame that holds position q of slice sl (R404). -/
def sliceFrame (sl q : Nat) : Nat := (576 * q + (sl + 576 - spread q 576) % 576) / 512

/-- The slice and position of 4 KiB unit g of tier 0 (R206 inverted by R404). -/
def sliceOf (g : Nat) : Nat × Nat := ((g % 576 + spread (g / 576) 576) % 576, g / 576)

/-- The DRAM frame that holds position q of a channel, given the live list (R181, R404). -/
def dramFrame (live : List Nat) (ch q : Nat) : Option Nat :=
  match live.idxOf? ch with
  | some i =>
    let l := live.length
    some ((l * q + (i + l - (q * 0x9E3779B1) % 2 ^ 32 % l) % l) / 8192)
  | none => none

/-- Channels that the merged map removes (kind 7), and the live list (R180). -/
def liveList (m : List Defect) : List Nat :=
  let down := (m.filter (fun d => d.kind == 7)).map (fun d => d.unit)
  (List.range 3072).filter (fun c => !down.contains c)

/-! ### Causes (R133, R136, R186 to R190) -/

namespace Cause
def level : Nat := 0x01
def opcode : Nat := 0x02
def format : Nat := 0x03
def shape : Nat := 0x04
def address : Nat := 0x05
def overlap : Nat := 0x06
def parameter : Nat := 0x07
def budget : Nat := 0x08
def wbufConflict : Nat := 0x09
def strandFault : Nat := 0x0A
def sparseIndex : Nat := 0x0B
def sparseRecord : Nat := 0x0C
def haccMisuse : Nat := 0x0D
def linkBlock : Nat := 0x0E
def pattern : Nat := 0x0F
def scale : Nat := 0x10
def aborted : Nat := 0x11
def contextReset : Nat := 0x12
def queueOverflow : Nat := 0x13
def tierFull : Nat := 0x14
def notSealed : Nat := 0x15
def ctxState : Nat := 0x16
def hoodInvalid : Nat := 0x17
def shelfRefused : Nat := 0x18
def migrateBusy : Nat := 0x19
end Cause

end Sys2Proof.Machine
end

