-- ==== Sys2Proof/Machine/Contexts.lean ====
section
/-! DEFINITION. Contexts, partitions, queues and records (05_sniash: R135 to R140, R157 to R170). -/
namespace Sys2Proof.Machine

/-! ### Context registers (R170) -/

/-- The page of context n. -/
def ctxPage (n : Nat) : Nat := Pg.opq (n / 16 + 1)

/-- A field of context n's block. -/
def State.cf (s : State) (n : Nat) (f : Nat → Fld) : Nat := s.board.fld (ctxPage n) (f (n % 16))

/-- Sets a field of context n's block. -/
def State.setCf (s : State) (n : Nat) (f : Nat → Fld) (v : Nat) : State := s.onBoard (fun b => b.setFld (ctxPage n) (f (n % 16)) v)

/-- Context n. -/
def State.ctx (s : State) (n : Nat) : Ctx := Tbl.get (fun _ => Ctx.init) s.ctxs n

/-- Stores context n. -/
def State.setCtx (s : State) (n : Nat) (c : Ctx) : State := { s with ctxs := Tbl.set (fun _ => Ctx.init) s.ctxs n c }

/-- Changes context n. -/
def State.updCtx (s : State) (n : Nat) (f : Ctx → Ctx) : State := s.setCtx n (f (s.ctx n))

namespace Cs
def free : Nat := 0
def loading : Nat := 1
def ready : Nat := 2
def running : Nat := 3
def stalled : Nat := 4
def error : Nat := 5
def resetting : Nat := 6
end Cs

/-- CTX_STATE.STATE. -/
def State.cstate (s : State) (n : Nat) : Nat := s.cf n F.opqCtxStateState

/-- Sets CTX_STATE.STATE and the context's bits of OPQ#i.STATUS (R169). -/
def State.setCstate (s : State) (n v : Nat) : State :=
  s.onBoard (fun b =>
    let p := ctxPage n
    let b1 := b.setFld p (F.opqCtxStateState (n % 16)) v
    let e := b1.fld p F.opqStatusErrors
    let r := b1.fld p F.opqStatusRunning
    b1.setFlds p [(F.opqStatusErrors, if v = Cs.error then setBit e (n % 16) else clearBit e (n % 16)),
      (F.opqStatusRunning, if v = Cs.running then setBit r (n % 16) else clearBit r (n % 16))])

/-- A field made of a low word's bits [31:12] and a high word's [19:0]. -/
def State.cAddr (s : State) (n : Nat) (lo hi : Nat → Fld) : Nat := 2 ^ 12 * s.cf n lo + 2 ^ 32 * s.cf n hi

/-- The descriptor ring, the completion ring and the scale table (R129, R135, R139). -/
def State.qbase (s : State) (n : Nat) : Nat := s.cAddr n F.opqCtxQbaseLoAddr F.opqCtxQbaseHiAddr
def State.qsize (s : State) (n : Nat) : Nat := 2 ^ s.cf n F.opqCtxQbaseLoRingLog2
def State.cbase (s : State) (n : Nat) : Nat := s.cAddr n F.opqCtxCbaseLoAddr F.opqCtxCbaseHiAddr
def State.csize (s : State) (n : Nat) : Nat := 2 ^ s.cf n F.opqCtxCbaseLoCringLog2
def State.sbase (s : State) (n : Nat) : Nat := s.cAddr n F.opqCtxSbaseLoAddr F.opqCtxSbaseHiAddr
def State.ssize (s : State) (n : Nat) : Nat := 2 ^ s.cf n F.opqCtxSbaseLoScaleLog2

/-- PI, CI, WI and RI. -/
def State.pi (s : State) (n : Nat) : Nat := s.cf n F.opqCtxQindexPi
def State.ci (s : State) (n : Nat) : Nat := s.cf n F.opqCtxQindexCi
def State.wi (s : State) (n : Nat) : Nat := s.cf n F.opqCtxCindexWi
def State.ri (s : State) (n : Nat) : Nat := s.cf n F.opqCtxCindexRi

/-- The difference of two 16-bit free-running indexes. -/
def idxSub (a b : Nat) : Nat := (a + 65536 - b % 65536) % 65536

/-- The oldest incomplete index: the first operator in flight that is not complete, else CI. -/
def State.oldest (s : State) (n : Nat) : Nat :=
  match (s.ctx n).ops.find? (fun o => !o.complete) with
  | some o => o.qindex
  | none => s.ci n

/-- Operators in flight. -/
def State.live (s : State) (n : Nat) : List OpRun := (s.ctx n).ops.filter (fun o => !o.complete)

/-- Keeps CTX_STATE.IN_FLIGHT (R170). -/
def State.syncFlight (s : State) (n : Nat) : State := s.setCf n F.opqCtxStateInFlight (s.live n).length

/-! ### Partitions (R159) -/

/-- The partition of context n. -/
def State.partOf (s : State) (n : Nat) : Nat := s.cf n F.opqCtxCfgPartition

/-- PARTp_CORES as a mask. -/
def Board.partMask (b : Board) (p : Nat) : Nat :=
  b.fld Pg.opq0 (F.opq0PartCoresLoCores p) + 2 ^ 32 * b.fld Pg.opq0 (F.opq0PartCoresMidCores p) +
    2 ^ 64 * b.fld Pg.opq0 (F.opq0PartCoresHiCores p)

/-- Stores PARTp_CORES. -/
def Board.setPartMask (b : Board) (p m : Nat) : Board :=
  b.setFlds Pg.opq0 [(F.opq0PartCoresLoCores p, m % 2 ^ 32), (F.opq0PartCoresMidCores p, m / 2 ^ 32 % 2 ^ 32),
    (F.opq0PartCoresHiCores p, m / 2 ^ 64)]

/-- The cores of partition p, ascending; the first is its lead core (R137). -/
def State.partCores (s : State) (p : Nat) : List Nat := (bitList 96 (s.board.partMask p)).filter s.coreEnabled

/-- The lead core of context n's partition; 0 for an empty partition. -/
def State.lead (s : State) (n : Nat) : Nat := (s.partCores (s.partOf n)).headD 0

/-- The partition that holds a core. -/
def State.partOfCore (s : State) (c : Nat) : Option Nat := (List.range 16).find? (fun p => (s.partCores p).contains c)

/-- The running context of partition p (R168). -/
def State.runningCtx (s : State) (p : Nat) : Option Nat :=
  if s.board.fld Pg.opq0 (F.opq0PartCtrlRunValid p) = 0 then none else some (s.board.fld Pg.opq0 (F.opq0PartCtrlRunningCtx p))

/-- Sets the running context of partition p and PARTS_ACTIVE. -/
def State.setRunning (s : State) (p : Nat) (c : Option Nat) : State :=
  s.onBoard (fun b =>
    let b1 := b.setFlds Pg.opq0 (match c with
      | some n => [(F.opq0PartCtrlRunningCtx p, n), (F.opq0PartCtrlRunValid p, 1)]
      | none => [(F.opq0PartCtrlRunningCtx p, 0), (F.opq0PartCtrlRunValid p, 0)])
    b1.setFld Pg.opq0 F.opq0StatusPartsActive
      ((List.range 16).filter (fun q => b1.flag Pg.opq0 (F.opq0PartCtrlRunValid q))).length)

/-- Partition p's state beside its registers. -/
def Part.init : Part := ⟨0, []⟩
def State.part (s : State) (p : Nat) : Part := Tbl.get (fun _ => Part.init) s.parts p
def State.setPart (s : State) (p : Nat) (x : Part) : State := { s with parts := Tbl.set (fun _ => Part.init) s.parts p x }

/-- A core's state beside its registers. -/
def Core.init : Core :=
  { task := none, doneAt := none, sampled := true, overran := none, slackSeen := false, sePeak := 0,
    reads := [], waiting := [], hacc := [], siteErrs := [],
    wsErrs := [], wsPoison := [], slowRun := 0, fastRun := 0, vregs := [], strands := [] }
def State.core (s : State) (c : Nat) : Core := Tbl.get (fun _ => Core.init) s.cores c
def State.setCore (s : State) (c : Nat) (x : Core) : State := { s with cores := Tbl.set (fun _ => Core.init) s.cores c x }

/-! ### Slices (R172, R173) -/

/-- The paged range of a context's slice: first page and page count. -/
def State.slice0 (s : State) (n : Nat) : Nat := s.cf n F.opqCtxSliceBaseBase
def State.sliceN (s : State) (n : Nat) : Nat := s.cf n F.opqCtxSlicePagesPages

/-- A page of the context's paged range. -/
def State.inPaged (s : State) (n p : Nat) : Bool := decide (s.slice0 n ≤ p) && decide (p < s.slice0 n + s.sliceN n)

/-- Does [a, a + k) lie in the context's working store region of one core of its partition (R173)? -/
def State.inWs (s : State) (n a k : Nat) : Bool :=
  let base := s.cf n F.opqCtxWsBaseMib * 2 ^ 20
  let size := s.cf n F.opqCtxWsSizeMib * 2 ^ 20
  (s.partCores (s.partOf n)).any (fun c =>
    decide (c * Lay.window + base ≤ a) && decide (a + k ≤ c * Lay.window + base + size))

/-- Does [a, a + k) lie in the context's slice, mapped and readable (R133 check 7, R173)? -/
def State.inSlice (s : State) (n a k : Nat) : Bool :=
  k == 0 || s.inWs n a k || ((pagesOf a k).all (s.inPaged n) && s.readable a k)

/-- May the context write [a, a + k)? -/
def State.inOut (s : State) (n a k : Nat) : Bool :=
  k == 0 || s.inWs n a k || ((pagesOf a k).all (s.inPaged n) && s.writablePages a k)

/-! ### Records (R139, R140) -/

/-- A record that names nothing yet. -/
def Rec.blank : Rec :=
  { type := 1, replay := false, opcode := 0, level := 0, ctx := 0, tag := 0, qindex := 0, cause := 0, slot := 7,
    nonfinite := false, digestValid := false, digest := 0, gtcStart := 0, gtcEnd := 0, ticks := 0, satCount := 0,
    nonfiniteCount := 0, aux := 0, stallTicks := 0, irq := false }

/-- A count limited to 32 bits. -/
def sat32 (n : Nat) : Nat := min n (2 ^ 32 - 1)

/-- The 64 bytes of a record (R139). -/
def Rec.bytes (r : Rec) (seq : Nat) : Bytes :=
  toLE 4 (r.type + 16 * b2n r.replay + 2 ^ 8 * (r.opcode % 256) + 2 ^ 16 * (r.level % 256) + 2 ^ 24 * (r.ctx % 256)) ++
  toLE 4 r.tag ++ toLE 2 r.qindex ++ toLE 2 r.cause ++
  toLE 4 (r.slot % 8 + 8 * b2n r.nonfinite + 16 * b2n r.digestValid) ++ toLE 8 r.digest ++ toLE 8 r.gtcStart ++
  toLE 8 r.gtcEnd ++ toLE 4 (sat32 r.ticks) ++ toLE 4 (sat32 r.satCount) ++ toLE 4 (sat32 r.nonfiniteCount) ++
  toLE 4 (sat32 r.aux) ++ toLE 4 (sat32 r.stallTicks) ++ toLE 4 seq

/-- The completion ring has room (R140). -/
def State.ringRoom (s : State) (n : Nat) : Bool := decide (idxSub (s.wi n) (s.ri n) < s.csize n)

/-- Writes one record at WI: SEQ from 1, the completion event of an IRQ record (R139, R169), vector 1 to 16 (R435). -/
def State.putRec (s : State) (n : Nat) (r : Rec) : State :=
  let seq := (s.ctx n).seq + 1
  let a := s.cbase n + 64 * (s.wi n % s.csize n)
  let s1 := (s.wrBytes a (r.bytes seq)).updCtx n (fun c => { c with seq := seq })
  let s2 := s1.setCf n F.opqCtxCindexWi (s.wi n + 1)
  let s3 := s2.onBoard (fun b => when (r.type == 2) (fun b => b.inc Pg.opq0 Cn.opq0ErrorRecords 1) b)
  if r.irq then
    s3.onBoard (fun b => (b.setEvent (ctxPage n) (n % 16) 0).signal (n / 16 + 1))
  else s3

/-- Writes the records that are owed and that the ring has room for: those of other types first, then complete operators
from the front of the queue (R140). -/
def State.flushRecs (n : Nat) : Nat → State → State
  | 0, s => s
  | k + 1, s =>
    if !s.ringRoom n then s
    else
      match (s.ctx n).owed, (s.ctx n).ops with
      | r :: rest, _ => State.flushRecs n k ((s.putRec n r).updCtx n (fun c => { c with owed := rest }))
      | [], o :: rest =>
        if o.complete then State.flushRecs n k ((s.putRec n o.record).updCtx n (fun c => { c with ops := rest })) else s
      | [], [] => s

/-- Writes what is owed, and keeps IN_FLIGHT. -/
def State.drainRecs (s : State) (n : Nat) : State :=
  (State.flushRecs n ((s.ctx n).owed.length + (s.ctx n).ops.length) s).syncFlight n

/-- A record of another type is written when it occurs (R140). -/
def State.pushRec (s : State) (n : Nat) (r : Rec) : State := (s.updCtx n (fun c => { c with owed := c.owed ++ [r] })).drainRecs n

/-- A context event record (TYPE 4). -/
def State.ctxEvent (s : State) (n cause tag : Nat) : State :=
  s.pushRec n { Rec.blank with type := 4, ctx := n, cause := cause, tag := tag, gtcStart := s.board.gtc, gtcEnd := s.board.gtc }

/-! ### Queue, command and configuration operations (R136, R137, R157, R158, R165) -/

/-- A doorbell that is discarded (R136). -/
def State.dbReject (s : State) : State :=
  s.onBoard (fun b => (b.inc Pg.opq0 Cn.opq0DbRejected 1).raise Pg.opq0 F.opq0EventDbRejected)

/-- A doorbell from the owning host (R136). -/
def State.doorbell (s : State) (n pi : Nat) : State :=
  if s.cstate n = Cs.free ∨ s.cstate n = Cs.error then s.dbReject
  else if pi = s.pi n then s
  else if idxSub pi (s.oldest n) > s.qsize n then
    ((s.setCstate n Cs.error).ctxEvent n Cause.queueOverflow 0).onBoard (fun b => b.raise Pg.opq0 F.opq0EventQueueOverflow)
  else s.setCf n F.opqCtxQindexPi pi

/-- Fetches the group of 32 slots that holds CI: the slots from CI up to the sampled PI are used (R137). -/
def State.fetch (s : State) (n : Nat) : State :=
  let ci := s.ci n
  let k := min (idxSub (s.ctx n).actPi ci) (32 - ci % s.qsize n % 32)
  if k = 0 then s
  else
    let ds := (List.range k).map (fun i =>
      ((ci + i) % 65536, s.rdBytes (s.qbase n + 128 * ((ci + i) % 65536 % s.qsize n)) 128))
    (s.updCtx n (fun c => { c with fetched := ds ++ c.fetched.filter (fun e => !ds.any (fun d => d.1 == e.1)) })).onBoard
      (fun b => b.inc Pg.opq0 Cn.opq0DescBursts 1)

/-- The halves of a core's weight double buffer as window offsets (R72). -/
def State.wbufLo (s : State) (c : Nat) : Nat := s.board.fld (Pg.core c) F.coreWbufBaseMib
def State.wbufHalf (s : State) (c : Nat) : Nat := s.board.fld (Pg.core c) F.coreWbufHalfMib

/-- The checks of ENABLE (R158, R173). -/
def State.enableOk (s : State) (n : Nat) : Bool :=
  let p := s.partOf n
  let cores := s.partCores p
  let others := (List.range 256).filter (fun m => decide (m ≠ n) && decide (s.cstate m ≠ Cs.free) && decide (s.partOf m = p))
  let all := n :: others
  let region := fun (m : Nat) => (s.cf m F.opqCtxWsBaseMib, s.cf m F.opqCtxWsBaseMib + s.cf m F.opqCtxWsSizeMib)
  let r := region n
  let streams := fun (m : Nat) => decide (s.cf m F.opqCtxCfgStreamer ≠ 0)
  let ringOk := fun (a k : Nat) => (pagesOf a k).all (fun q => s.inPaged n q && (s.tier.entry q).valid &&
    decide ((s.tier.entry q).tier = 0)) || s.inWs n a k
  !cores.isEmpty &&
  (decide (s.sliceN n ≠ 0) && isPaged (s.slice0 n) && isPaged (s.slice0 n + s.sliceN n - 1)) &&
  (ringOk (s.qbase n) (128 * s.qsize n) && ringOk (s.cbase n) (64 * s.csize n) && ringOk (s.sbase n) (16 * s.ssize n)) &&
  (decide (r.1 < r.2) && others.all (fun m => decide (r.2 ≤ (region m).1) || decide ((region m).2 ≤ r.1))) &&
  (!streams n || !others.any streams) &&
  (!all.any streams || cores.all (fun c => all.all (fun m =>
    decide ((region m).2 ≤ s.wbufLo c) || decide (s.wbufLo c + 2 * s.wbufHalf c ≤ (region m).1))))

/-- Indexes and records of a context cleared (R165). -/
def State.clearCtx (s : State) (n : Nat) : State :=
  ((((s.setCtx n Ctx.init).setCf n F.opqCtxQindexPi 0).setCf n F.opqCtxQindexCi 0).setCf n F.opqCtxCindexWi 0).setCf n
    F.opqCtxCindexRi 0 |>.setCf n F.opqCtxStateInFlight 0 |>.setCf n F.opqCtxLastStepQindex 0

/-- CTX_CMD.ENABLE: a FREE context with a valid configuration becomes READY (R157, R158). -/
def State.enable (s : State) (n : Nat) : State :=
  if s.cstate n ≠ Cs.free then s
  else if s.enableOk n then ((s.clearCtx n).setCf n F.opqCtxStateCfgErr 0).setCstate n Cs.ready
  else (s.setCf n F.opqCtxStateCfgErr 1).onBoard (fun b => b.raise Pg.opq0 F.opq0EventCtxConfig)

/-- Which bursts of an operator that ends early have committed is open (R84, R163): each one whole or not at all, by a free
number. -/
def State.endWrites (s : State) (o : OpRun) : State :=
  o.outW.foldl (fun s w =>
    (chunks 256 w.2).zip (List.range (w.2.length)) |>.foldl (fun s p =>
      let (k, s1) := s.freeNat
      if k % 2 = 1 then s1.wrBytes (w.1 + 256 * p.2) p.1 else s1) s) s

/-- With no operator of the context left in flight, its partition's cores show no quarter mode and no sparse path. -/
def State.idleWork (s : State) (n : Nat) : State :=
  if (s.live n).isEmpty then s.onBoard (fun b => (s.partCores (s.partOf n)).foldl (fun b c =>
    (b.setFld (Pg.core c) F.coreStatusQuarter 0).setFld (Pg.spx c) F.spxStatusSparseActive 0) b) else s

/-- Ends the operators in flight without records, each burst committed whole or discarded whole (R163). -/
def State.endOps (s : State) (n : Nat) : State :=
  if (s.live n).isEmpty then s
  else (((s.live n).foldl State.endWrites s).updCtx n (fun c => { c with ops := c.ops.filter (fun o => o.complete) }) |>.syncFlight n).idleWork n

/-- The context leaves its partition. -/
def State.leave (s : State) (n : Nat) : State := if s.runningCtx (s.partOf n) = some n then s.setRunning (s.partOf n) none else s

/-- CTX_CMD.RESET (R165): the context's operators end, one record with cause CONTEXT_RESET for the oldest, indexes to 0,
RESETTING. -/
def State.ctxReset (s : State) (n : Nat) : State :=
  if s.cstate n = Cs.free then s
  else
    let s1 := match (s.live n).head? with
      | some o => (s.endOps n).pushRec n { o.record with type := 2, cause := Cause.contextReset, slot := 7, gtcEnd := s.board.gtc }
      | none => s.endOps n
    ((s1.leave n).clearCtx n).setCstate n Cs.resetting

/-- A DISABLE moves the context to FREE once its operators in flight have completed; a load in progress is abandoned where the
memory chapter does so (R157). -/
def State.ctxDisable (s : State) (n : Nat) : State :=
  if s.cstate n = Cs.free then s else s.updCtx n (fun c => { c with disablePending := true })

/-- A class B abort reaches a context (R163): operators end, CI returns to the last STEP or to the oldest incomplete
operator; it runs again when the replay starts. -/
def State.rewind (s : State) (n : Nat) : State :=
  if s.cstate n = Cs.free then s
  else
    let c := s.ctx n
    let old := s.ci n
    let new := if c.stepped then (s.cf n F.opqCtxLastStepQindex + 1) % 65536 else s.oldest n
    let s1 := (s.endOps n).updCtx n (fun c =>
      { c with ops := c.ops.filter (fun o => decide (o.qindex ≠ new) && decide (idxSub new o.qindex ≤ 32768)), fetched := [],
               replayLeft := c.replayLeft + idxSub old new, paused := true })
    ((s1.setCf n F.opqCtxQindexCi new).syncFlight n).onBoard (fun b =>
      (b.inc Pg.opq0 Cn.opq0Replays 1).raise Pg.opq0 F.opq0EventReplay)

end Sys2Proof.Machine
end

