-- ==== Sys2Proof/Machine/Messages.lean ====
section
/-! DEFINITION. The sending side of the hatband: engines, flits, credits, sessions and messages (10_hatband: R285 to R307). -/
namespace Sys2Proof.Machine

/-! ### Engines and groups -/

/-- Initial credits of the classes TICK, MGMT, BATT, FULL and PEER (R297). -/
def initCredit : List Nat := [64, 64, 2048, 1024, 1024]

/-- An engine that has done nothing. -/
def Engine.init : Engine :=
  { txSeq := 0, rxSeq := 0, queue := [], replay := [], sent := [0, 0, 0, 0, 0], granted := [0, 0, 0, 0, 0],
    freed := [0, 0, 0, 0, 0], crNext := 0, asked := false, replayFails := 0, swapped := false, txSpare := [], rxSpare := [],
    txRetrain := [], rxRetrain := [], attempts := [], txVersion := 0, rxVersion := 0, txMap := [], rxMap := [], partials := [] }

/-- A group that has done nothing. -/
def Group.init : Group :=
  { txGmsn := [0, 0, 0, 0, 0], rxLow := [0, 0, 0, 0, 0], rxSeen := [[], [], [], [], []], unacked := [], waiting := [],
    offer := none, sentAccept := none, gotAccept := none, last := none }

/-- Engine e and group g. -/
def State.engine (s : State) (e : Nat) : Engine := Tbl.get (fun _ => Engine.init) s.net.engines e
def State.setEngine (s : State) (e : Nat) (x : Engine) : State :=
  { s with net := { s.net with engines := Tbl.set (fun _ => Engine.init) s.net.engines e x } }
def State.group (s : State) (g : Nat) : Group := Tbl.get (fun _ => Group.init) s.net.groups g
def State.setGroup (s : State) (g : Nat) (x : Group) : State :=
  { s with net := { s.net with groups := Tbl.set (fun _ => Group.init) s.net.groups g x } }

namespace Eng
def dark : Nat := 0
def lightCheck : Nat := 1
def training : Nat := 2
def up : Nat := 3
def down : Nat := 4
def loopback : Nat := 5
end Eng

/-- HB.STATUS.ENG_STATE of engine e. -/
def Board.engState (b : Board) (e : Nat) : Nat := b.fld (Pg.hb e) F.hbStatusEngState

/-- An UP engine. -/
def State.engUp (s : State) (e : Nat) : Bool := s.board.engState e == Eng.up

/-- The UP engines of a group, ascending. -/
def State.upEngines (s : State) (g : Nat) : List Nat := ((List.range 4).map (· + 4 * g)).filter s.engUp

/-- Keeps NOL.STATUS.ENGINES_UP. -/
def State.countEngines (s : State) (g : Nat) : State :=
  s.onBoard (fun b => b.setFld (Pg.nol g) F.nolStatusEnginesUp (s.upEngines g).length)

namespace Ses
def none : Nat := 0
def offered : Nat := 1
def up : Nat := 2
def refused : Nat := 3
def held : Nat := 4
end Ses

/-- NOL.STATUS.SESSION of group g. -/
def Board.session (b : Board) (g : Nat) : Nat := b.fld (Pg.nol g) F.nolStatusSession

/-- Sets NOL.STATUS.SESSION and keeps HB#48.STATUS.GROUP_UP. -/
def Board.setSession (b : Board) (g v : Nat) : Board :=
  let b1 := b.setFld (Pg.nol g) F.nolStatusSession v
  let m := b1.fld Pg.hbGlobal F.hbGlobalStatusGroupUp
  b1.setFld Pg.hbGlobal F.hbGlobalStatusGroupUp (if v = Ses.up then setBit m g else clearBit m g)

/-- A session is UP. -/
def State.sessionUp (s : State) (g : Nat) : Bool := decide (g < 12) && s.board.session g == Ses.up

/-- GROUPg_CFG.ROLE: 0 dark, 1 server, 2 peer (R286). -/
def Board.groupRole (b : Board) (g : Nat) : Nat := b.fld Pg.hbGlobal (F.hbGlobalGroupCfgRole g)

/-- Negotiated features (R303). -/
def State.sesFeature (s : State) (g i : Nat) : Bool := (s.board.fld (Pg.nol g) F.nolSessionFeaturesFeatures).testBit i

/-- A group at negotiated level AL1. -/
def State.sesLevel (s : State) (g : Nat) : Nat := s.board.fld (Pg.nol g) F.nolStatusLevel

/-! ### Flits (R289 to R292) -/

/-- The 12 header bytes before the CRC. -/
def flitHead (kind : Nat) (rreq : Bool) (cls : Nat) (som eom : Bool) (valid seq ack crClass crCount : Nat) : Bytes :=
  toLE 12 (kind % 4 + 4 * b2n rreq + 16 * (cls % 8) + 128 * b2n som + 256 * b2n eom + 512 * (valid % 16) +
    2 ^ 16 * (seq % 65536) + 2 ^ 32 * (ack % 65536) + 2 ^ 48 * (crClass % 8) + 2 ^ 52 * (crCount % 4096))

/-- A flit of 256 B from its header and payload. -/
def flitBytes (head payload : Bytes) : Bytes :=
  let p := slice payload 0 240
  head ++ toLE 4 (crc32c (head ++ p)) ++ p

/-- Sends a flit: it carries the ACK and the credit count in turn. -/
def State.sendFlit (s : State) (e kind : Nat) (rreq : Bool) (seq : Nat) (f : TxFlit) : State :=
  let x := s.engine e
  let h := flitHead kind rreq f.cls f.som f.eom f.valid seq x.rxSeq x.crNext (x.freed.getD x.crNext 0)
  (s.setEngine e { x with crNext := (x.crNext + 1) % 5 }).onBoard (fun b =>
    let b1 := b.emit (.flit e (flitBytes h f.payload))
    if kind = 2 then b1.inc (Pg.hb e) Cn.hbTxFlits 1 else b1)

/-- A flit with no payload. -/
def TxFlit.empty : TxFlit := ⟨0, false, false, 0, [], 0⟩

/-- An IDLE flit, which carries ACK, credit and REPLAY_REQ. -/
def State.sendIdle (s : State) (e : Nat) (rreq : Bool) : State := s.sendFlit e 0 rreq 0 TxFlit.empty

/-- Free credits of a class at an engine (R297). -/
def Engine.credit (x : Engine) (c : Nat) : Nat :=
  initCredit.getD c 0 - (x.sent.getD c 0 + 4096 - x.granted.getD c 0 % 4096) % 4096

/-- Adds one to an entry of a list of counts modulo 4,096. -/
def bumpAt (l : List Nat) (c : Nat) : List Nat := (l.zip (List.range l.length)).map (fun p => if p.2 = c then (p.1 + 1) % 4096 else p.1)

/-- Replaces an entry of a list. -/
def putAt {α : Type} (l : List α) (c : Nat) (v : α) : List α := (l.zip (List.range l.length)).map (fun p => if p.2 = c then v else p.1)

/-- Sends the waiting flits of an UP engine that have credit and room in the replay buffer, in order within each class. How many
cycles a flit waits for room or for credit is open (notes/assumptions/2.md). -/
def State.pumpAll (e : Nat) : List TxFlit → State → State
  | [], s => s
  | f :: rest, s =>
    let x := s.engine e
    let blocked := x.queue.any (fun g => g.cls == f.cls)
    let full := decide (x.replay.length ≥ 4096)
    if blocked || full || x.credit f.cls = 0 then
      let (k, s1) := s.freeNat
      State.pumpAll e rest ((s1.setEngine e { x with queue := x.queue ++ [f] }).onBoard (fun b =>
        b.inc (Pg.hb e) (if full then Cn.hbBufFullCycles else Cn.hbCreditWaitCycles) k))
    else
      let y := { x with txSeq := (x.txSeq + 1) % 65536, replay := x.replay ++ [(x.txSeq, f)], sent := bumpAt x.sent f.cls }
      State.pumpAll e rest ((s.setEngine e y).sendFlit e 2 false x.txSeq f)

/-- Sends what waits at an engine and can go. -/
def State.pump (s : State) (e : Nat) : State :=
  let x := s.engine e
  if s.engUp e then State.pumpAll e x.queue (s.setEngine e { x with queue := [] }) else s

/-- A replay pass: buffered flits from SEQ a onward go again (R294). -/
def State.replayFrom (s : State) (e a : Nat) : State :=
  let x := s.engine e
  let again := x.replay.dropWhile (fun p => !(p.1 == a))
  let s1 := s.onBoard (fun b => (b.inc (Pg.hb e) Cn.hbReplays 1).raise (Pg.hb e) F.hbEventReplay)
  again.foldl (fun s p => s.sendFlit e 2 false p.1 p.2) s1

/-! ### Messages (R298, R299) -/

/-- The flits of a message: the 16 B message header, then the body, 240 B a flit. -/
def msgFlits (cls gmsn sub : Nat) (body : Bytes) : List TxFlit :=
  let bs := toLE 4 gmsn ++ toLE 4 body.length ++ toLE 8 (sub % 256) ++ body
  let ps := chunks 240 bs
  (ps.zip (List.range ps.length)).map (fun p =>
    ⟨cls, decide (p.2 = 0), decide (p.2 + 1 = ps.length), ceilDiv p.1.length 16, slice p.1 0 240, gmsn⟩)

/-- The engine that carries the next message of a class (R299). -/
def State.pickEngine (s : State) (g cls : Nat) : Option Nat :=
  let ups := s.upEngines g
  if cls ≤ 1 then ups.head?
  else
    ups.foldl (fun (best : Option Nat) e =>
      match best with
      | none => some e
      | some b => if (s.engine e).credit cls > (s.engine b).credit cls then some e else some b) none

/-- Puts a message with its number on an engine. -/
def State.putMsg (s : State) (e cls gmsn sub : Nat) (body : Bytes) : State :=
  let x := s.engine e
  (s.setEngine e { x with queue := x.queue ++ msgFlits cls gmsn sub body }).pump e

/-- How far a group's next number of a class lies ahead of its oldest unacknowledged message. -/
def Group.ahead (x : Group) (cls : Nat) : Nat :=
  match (x.unacked.filter (fun m => m.cls == cls)).head? with
  | some m => x.txGmsn.getD cls 0 - m.gmsn
  | none => 0

/-- Sends a message on a group, or keeps it waiting for the window of R299; with no UP engine there is no path. -/
def State.transmit (s : State) (g cls sub : Nat) (body : Bytes) : State :=
  let x := s.group g
  match s.pickEngine g cls with
  | none => s
  | some e =>
    if x.ahead cls > 4095 || x.waiting.any (fun w => w.1 == cls) then s.setGroup g { x with waiting := x.waiting ++ [(cls, sub, body)] }
    else
      let n := x.txGmsn.getD cls 0
      let s1 := s.setGroup g { x with txGmsn := putAt x.txGmsn cls (n + 1), unacked := x.unacked ++ [⟨cls, sub, n, body, e⟩] }
      let s2 := s1.onBoard (fun b => (b.inc (Pg.nol g) Cn.nolMsgsTx 1).emit (.msg g cls sub n body))
      s2.putMsg e cls n sub body

/-- Does a role carry a class out (R286)? MGMT always; BATT and FULL on a server group; TICK, FULL and PEER on a peer group. -/
def roleSends (role cls : Nat) : Bool := cls == 1 || (role == 1 && (cls == 2 || cls == 3)) || (role == 2 && (cls == 0 || cls == 3 || cls == 4))

/-- Does a role carry a class in? -/
def roleTakes (role cls : Nat) : Bool := cls == 1 || (role == 1 && cls == 2) || (role == 2 && (cls == 0 || cls == 3 || cls == 4))

/-- In HELD and in COMPUTE_RESET, and in CHECKING as in HELD (R391), the module sends and takes no TICK, BATT, FULL or PEER message
(R307). -/
def State.quiet (s : State) : Bool :=
  decide (s.board.st = St.held) || decide (s.board.st = St.computeReset) || decide (s.board.st = St.checking)

/-- Sends a message of a class that the group's role carries, on an UP session (R286, R303, R307). -/
def State.sendMsg (s : State) (g cls sub : Nat) (body : Bytes) : State :=
  if cls = 1 then s.transmit g cls sub body
  else if s.quiet || !s.sessionUp g || !roleSends (s.board.groupRole g) cls then s
  else s.transmit g cls sub body

/-- A message that arrives: discarded and counted in HELD and COMPUTE_RESET, and when the role does not carry its class; without
an UP session only MGMT arrives. -/
def State.arrives (s : State) (g cls : Nat) (f : State → State) : State :=
  if cls ≠ 1 && s.quiet then s.onBoard (fun b => b.inc (Pg.nol g) Cn.nolHeldDiscards 1)
  else if !roleTakes (s.board.groupRole g) cls then s.onBoard (fun b => b.inc (Pg.nol g) Cn.nolRoleDiscards 1)
  else if cls ≠ 1 && !s.sessionUp g then s
  else f s

/-! ### Server groups (R287) -/

/-- The UP engine groups of server group n. -/
def State.serverGroups (s : State) (n : Nat) : List Nat :=
  (List.range 12).filter (fun g => s.sessionUp g && s.board.groupRole g == 1 && s.board.fld Pg.hbGlobal (F.hbGlobalGroupCfgServerGroup g) == n)

/-- Sends a BATT-class message to a server of group n, on its UP engine groups in turn. -/
def State.sendServer (s : State) (n sub : Nat) (body : Bytes) : State :=
  let gs := s.serverGroups n
  let last := Tbl.get (fun _ => 12) s.net.turn n
  let next := (gs.find? (fun g => decide (last < g) && decide (last < 12))).orElse (fun _ => gs.head?)
  match next with
  | none => s
  | some g => ({ s with net := { s.net with turn := Tbl.set (fun _ => 12) s.net.turn n g } }).sendMsg g 2 sub body

/-! ### Peers -/

/-- MEM.RACK_ID: this module's rack index (R174). -/
def State.rack (s : State) : Nat := s.board.fld Pg.mem F.memRackIdIndex

/-- The peer group that joins a rack, with its session UP. -/
def State.peerGroup (s : State) (rack : Nat) : Option Nat :=
  (List.range 12).find? (fun g => s.sessionUp g && s.board.groupRole g == 2 &&
    s.board.fld Pg.hbGlobal (F.hbGlobalGroupCfgPeerRack g) == rack)

end Sys2Proof.Machine
end

