-- ==== Sys2Proof/Machine/Defects.lean ====
section
/-! DEFINITION. The field-defect log as events write it (14_bringup: R399 to R402). -/
namespace Sys2Proof.Machine

/-- The field log is full, and nearly full (R402). -/
def logMax : Nat := 65536
def logNear : Nat := 60000

/-- Entries in the field log, staged ones included. -/
def Store.logCount (st : Store) : Nat := st.fieldLog.length + st.fieldStaged.length

/-- A field entry is appended to staging (R402). -/
def State.appendDefect (s : State) (f : Found) : State :=
  let d : Defect := ⟨f.kind, f.source, f.unit, f.detail, s.store.lifeBringups⟩
  let s1 := { s with bup := { s.bup with sinceMerge := s.bup.sinceMerge ++ [d] } }
  if s.store.logCount ≥ logMax then
    ({ s1 with bup := { s1.bup with extra := s1.bup.extra ++ [d] } }).onBoard (fun b => b.inc Pg.fus Cn.fusLogDropped 1)
  else
    let s2 := { s1 with store := { s1.store with fieldStaged := s1.store.fieldStaged ++ [d] } }
    let n := s2.store.logCount
    let s3 := s2.onBoard (fun b =>
      let b1 := ((b.inc Pg.fus Cn.fusFieldAppends 1).raise Pg.fus F.fusEventFieldEntry).setFld Pg.fus F.fusFieldEntriesCount n
      if n = logNear then b1.raise Pg.fus F.fusEventLogNearFull else b1)
    if n = logMax then
      (s3.onBoard (fun b => (b.setFld Pg.fus F.fusStatusLogFull 1).setFld Pg.bup F.bupStatusFullDue 1)).classC Pg.fus F.fusEventLogFull
    else s3

end Sys2Proof.Machine
end

