-- ==== Sys2Proof/Machine/Roles.lean ====
section
/-! DEFINITION. The crown, the control tree, step and attempt numbers, and what asks for an abort (11_tick_and_roles: R322,
R329 to R331, R335, R338, R341; 09_fulling: R259). -/
namespace Sys2Proof.Machine

/-! ### The grid -/

/-- The GTC of grid point n. -/
def State.gridPoint (s : State) (n : Nat) : Nat := s.crown.base + (n - s.crown.baseTick) * s.crown.period

/-- The first grid point at or after a GTC, never an earlier one than the next. -/
def State.gridAt (s : State) (g : Nat) : Nat :=
  max (s.crown.tick + 1) (if s.crown.period = 0 then 0 else s.crown.baseTick + ceilDiv (g - s.crown.base) s.crown.period)

/-- Keeps TK.ORIGIN and TK.TICK. -/
def State.syncTk (s : State) : State :=
  s.onBoard (fun b => (b.wr64 Pg.tk F.tkOriginLoGtc.off s.crown.origin).wr64 Pg.tk F.tkTickLoTick.off s.crown.tick)

/-- Starts the grid at a GTC as grid point 0 (R322). -/
def State.startGrid (s : State) (o period : Nat) : State :=
  (({ s with crown := { s.crown with origin := o, tick := 0, baseTick := 0, base := o, period := period } }).onBoard (fun b =>
    b.setFld Pg.tk F.tkStatusRunning 1)).syncTk

/-! ### Roles, ranks and the control tree (R329 to R331) -/

/-- ROLE.STATUS.ROLE: 0 none, 1 worker, 2 crown, 3 top crown. -/
def State.role (s : State) : Nat := s.board.fld Pg.role F.roleStatusRole

/-- Sets the role; a change sets ROLE_CHANGED. -/
def State.setRole (s : State) (r : Nat) : State :=
  s.onBoard (fun b => if b.fld Pg.role F.roleStatusRole = r then b
    else (b.setFld Pg.role F.roleStatusRole r).raise Pg.role F.roleEventRoleChanged)

/-- This module holds the crown of its group. -/
def State.isCrown (s : State) : Bool := decide (2 ≤ s.role)

/-- N, the modules of the job. -/
def State.jobSize (s : State) : Nat := s.board.fld Pg.role F.roleRankJobSizeM1 + 1

/-- This module's job rank. -/
def State.rank (s : State) : Nat := s.board.fld Pg.role F.roleRankJobRank

/-- Modules of the group. -/
def State.groupSize (s : State) : Nat := s.board.fld Pg.role F.roleGroupCfgSize

/-- This module carries out the job's aborts, alignment and barriers (R330): it holds the top crown, or the crown of a job of
one group. -/
def State.holdsTop (s : State) : Bool := s.role == 3 || (s.role == 2 && decide (s.jobSize ≤ s.groupSize))

/-- The rack of a job rank, as far as the module has learned it. -/
def State.rankRack (s : State) (r : Nat) : Option Nat :=
  if r = s.rank then some s.rack else (s.crown.members.find? (fun p => p.1 == r)).map Prod.snd

/-- The job rank of the present crown: the rank of ROLE.CROWN.CURRENT where a REMAP has named it, else rank 0, which holds the
crown at the start (R329). -/
def State.crownRank (s : State) : Nat :=
  let cur := s.board.fld Pg.role F.roleCrownCurrent
  if s.isCrown then s.rank
  else ((s.crown.members.find? (fun p => p.2 == cur)).map Prod.fst).getD 0

/-- The parent's rank in the heap rooted at rank c, with the given fan-out (R331, R332). -/
def heapParent (n c fan r : Nat) : Option Nat :=
  let r' := (r + n - c % n) % n
  if n = 0 ∨ r' = 0 then none else some (((r' - 1) / fan + c) % n)

/-- The children's ranks in the heap rooted at rank c. -/
def heapChildren (n c fan r : Nat) : List Nat :=
  let r' := (r + n - c % n) % n
  ((List.range fan).map (fun i => fan * r' + 1 + i)).filter (fun k => decide (k < n)) |>.map (fun k => (k + c) % n)

/-- The parent and the children of this module in the control tree. -/
def State.parentRank (s : State) : Option Nat := heapParent s.jobSize s.crownRank 16 s.rank
def State.childRanks (s : State) : List Nat := heapChildren s.jobSize s.crownRank 16 s.rank

/-- The engine group toward a rack. -/
def State.toRack (s : State) (rack cls sub : Nat) (body : Bytes) : State :=
  match s.peerGroup rack with
  | some g => s.sendMsg g cls sub body
  | none => s

/-- A message to a rank, where the module knows its rack and a peer group joins it. -/
def State.toRank (s : State) (r cls sub : Nat) (body : Bytes) : State :=
  match s.rankRack r with
  | some k => s.toRack k cls sub body
  | none => s

/-- The peer groups with a session, but for those that join a rack or are the group named. -/
def State.peersBut (s : State) (rack : Nat) (group : Option Nat) : List Nat :=
  (List.range 12).filter (fun g => s.sessionUp g && s.board.groupRole g == 2 &&
    !(s.board.fld Pg.hbGlobal (F.hbGlobalGroupCfgPeerRack g) == rack) && !(group == some g))

/-- A message down the control tree. Until a REMAP has named the racks of other ranks the module does not know its children, and the
message goes on every peer group but those toward the crown and the one it came from (DEDUCED, notes/assumptions/26.md). -/
def State.toChildrenBut (s : State) (group : Option Nat) (cls sub : Nat) (body : Bytes) : State :=
  if s.crown.members.isEmpty then
    (s.peersBut (if s.isCrown then 4096 else s.board.fld Pg.role F.roleCrownCurrent) group).foldl (fun s g => s.sendMsg g cls sub body) s
  else s.childRanks.foldl (fun s r => s.toRank r cls sub body) s
def State.toChildren (s : State) (cls sub : Nat) (body : Bytes) : State := s.toChildrenBut none cls sub body

/-- A message up it: to the parent where its rack is known, else toward the crown's rack. -/
def State.toParent (s : State) (cls sub : Nat) (body : Bytes) : State :=
  match s.parentRank with
  | some r => if s.crown.members.isEmpty then s.toRack (s.board.fld Pg.role F.roleCrownCurrent) cls sub body else s.toRank r cls sub body
  | none => s

/-- A message to the crown: directly where a peer group joins it, else toward the parent, which forwards it. -/
def State.toCrown (s : State) (cls sub : Nat) (body : Bytes) : State :=
  let cur := s.board.fld Pg.role F.roleCrownCurrent
  match s.peerGroup cur with
  | some g => s.sendMsg g cls sub body
  | none => s.toParent cls sub body

/-- A body from (offset, length, value) fields, zero elsewhere. -/
def bodyOf (n : Nat) (fs : List (Nat × Nat × Nat)) : Bytes :=
  toLE n (fs.foldl (fun a f => a + (f.2.2 % 256 ^ f.2.1) * 256 ^ f.1) 0)

/-! ### The one-way bound (R335) -/

/-- The smallest L with 16^L ≥ n. -/
def log16 (n : Nat) : Nat := if n ≤ 1 then 0 else if n ≤ 16 then 1 else if n ≤ 256 then 2 else if n ≤ 4096 then 3 else 4

/-- The one-way bound in cycles: 350 ns, or 438 cycles on a TD3-M and TD3-S, plus 0.7 µs a level. -/
def State.oneWay (s : State) : Nat :=
  let mult := s.board.fld Pg.clk F.clkMclkStateCurrent
  let l := log16 s.jobSize
  if s.store.variant = 0 then ceilDiv ((350 + 700 * l) * mult) 20 else 438 + ceilDiv (700 * l * mult) 20

/-! ### Steps and attempts (R259) -/

/-- STEP of a context: the number of its last completed STEP marker plus 1; 0 while it has completed none (DEDUCED,
notes/assumptions/15.md). -/
def State.stepOf (s : State) (n : Nat) : Nat := if (s.ctx n).stepped then ((s.ctx n).stepNo + 1) % 2 ^ 32 else 0

/-- ATTEMPT of a step: that of the latest ABORT for it, else 0. -/
def State.attemptOf (s : State) (step : Nat) : Nat :=
  if s.board.fld Pg.role F.roleLastAbortStepStep = step then s.board.fld Pg.role F.roleLastAbortAttempt else 0

/-! ### Aborts (R338) -/

/-- The crown's decision to abort a step: once for a step and ATTEMPT; effective at the first grid point at least two one-way
bounds later; ABORT goes down the control tree. -/
def State.decideAbort (s : State) (step reason : Nat) : State :=
  let att := (s.attemptOf step + 1) % 256
  if s.crown.aborts.any (fun a => a.step == step && a.attempt == att) then s
  else
    let a := s.gridAt (s.board.gtc + 2 * s.oneWay)
    let s1 := { s with crown := { s.crown with aborts := s.crown.aborts ++ [(⟨step, att, reason, a⟩ : Abort)] } }
    s1.toChildren 0 0x06 (bodyOf 32 [(0, 4, step), (4, 1, att), (5, 1, reason), (8, 8, a)])

/-- A report to a crown elsewhere for which the manual gives no message form: an MGMT message whose SUBKIND is free and whose body has
the places of a like report (DESIGN CHOICE, notes/assumptions/16.md). -/
def State.sendReport (s : State) (body : Bytes) : State :=
  let (k, s1) := s.freeNat
  s1.toCrown 1 (k % 256) body

/-- A class B fault that ends a step is reported to the crown (R338). The module that holds it aborts the step; another one sends
the report, STEP and ATTEMPT where a notice has them. -/
def State.reportB (s : State) (step : Nat) : State :=
  if !s.gridRuns then s
  else if s.holdsTop then s.decideAbort step 3
  else s.sendReport (bodyOf 32 [(0, 2, s.rack), (3, 1, s.attemptOf step), (4, 4, step)])

/-- The step that a class B fault ends where no running context names one: the latest of the contexts that are not FREE, else 0 (DEDUCED,
notes/assumptions/15.md). -/
def State.faultStep (s : State) : Nat :=
  (((List.range 256).filter (fun n => decide (s.cstate n ≠ Cs.free))).map s.stepOf).foldl max 0

/-- A class B fault of a core: the step of the context that its partition runs. -/
def State.reportCore (s : State) (c : Nat) : State :=
  s.reportB (match (s.partOfCore c).bind s.runningCtx with
    | some n => s.stepOf n
    | none => s.faultStep)

/-! ### Exclusion (R340, R341) -/

/-- A REMAP body for a partition of a rack, effective at a step. -/
def remapBody (step rack part mask : Nat) (rank sizeM1 : Nat) : Bytes :=
  bodyOf 32 [(0, 4, step), (4, 2, rack % 4096), (6, 1, part), (8, 12, mask), (20, 2, rank), (24, 2, sizeM1)]

/-- A REMAP waits here when it names this module's rack; else it goes toward that rack. -/
def State.issueRemap (s : State) (body : Bytes) : State :=
  let rack := leAt body 4 2 % 4096
  if rack = s.rack then { s with crown := { s.crown with remaps := s.crown.remaps ++ [body] } }
  else
    match s.peerGroup rack with
    | some g => s.sendMsg g 1 0x10 body
    | none => s.toChildren 1 0x10 body

/-- The crown excludes cores of its own module at the next step boundary: a REMAP for each partition that holds one (R340). -/
def State.excludeOwn (s : State) (mask : Nat) : State :=
  (List.range 16).foldl (fun s p =>
    let m := s.board.partMask p
    let hit := m &&& mask
    if hit = 0 then s
    else
      let step := ((s.runningCtx p).map s.stepOf).getD 0
      s.issueRemap (remapBody step s.rack p (m ^^^ hit) s.rank (s.jobSize - 1))) s

/-- The crown excludes cores of another module: which partition holds them and which cores it keeps is not known here, so both
are free (notes/assumptions/17.md). -/
def State.excludeFar (s : State) (rack mask : Nat) : State :=
  let (p, s1) := s.freeNat
  let (m, s2) := s1.freeNat
  let (st, s3) := s2.freeNat
  let (rk, s4) := s3.freeNat
  s4.issueRemap (remapBody st rack (p % 16) ((m % 2 ^ 96) ^^^ ((m % 2 ^ 96) &&& mask)) rk (s.jobSize - 1))

/-- The crown excludes modules by job rank (R340): each gets a REMAP of partition 0xFF, and the others' ranks close up in ascending
order, by REMAPs whose partition and cores, for another module, are open (notes/assumptions/17.md). -/
def State.excludeRanks (s : State) (step : Nat) (out : List Nat) : State :=
  let keep := (List.range s.jobSize).filter (fun r => !out.contains r)
  let size := keep.length
  if size = s.jobSize ∨ size = 0 then s
  else
    (s.crown.members ++ [(s.rank, s.rack)]).foldl (fun s m =>
      match keep.idxOf? m.1 with
      | none => s.issueRemap (remapBody step m.2 0xFF 0 0 (size - 1))
      | some r =>
        if m.2 = s.rack then s.issueRemap (remapBody step m.2 0 (s.board.partMask 0) r (size - 1))
        else
          let (p, s1) := s.freeNat
          let (k, s2) := s1.freeNat
          s2.issueRemap (remapBody step m.2 (p % 16) (k % 2 ^ 96) r (size - 1))) s

/-- The job ranks that a missing-contributor notice names: contributor 0 is the notifier itself, contributor k its child k in the
tree that the crown lays out (R271, R332). -/
def namedRanks (r mask n : Nat) : List Nat :=
  ((bitList 16 mask).map (fun i => if i = 0 then r else 15 * r + i)).filter (fun k => decide (k < n))

/-- ROLE.CROWN_CFG.AUTO_EXCLUDE. -/
def State.autoExclude (s : State) : Bool := s.board.flag Pg.role F.roleCrownCfgAutoExclude

/-- A SLOW report to the crown: this module's rack, set or cleared, and its SLOW cores (R339, R341). -/
def State.reportSlow (s : State) (set : Bool) (mask : Nat) : State :=
  if s.isCrown then (if set && s.autoExclude then s.excludeOwn mask else s)
  else s.toCrown 1 0x11 (bodyOf 32 [(0, 2, s.rack), (2, 1, if set then 1 else 0), (4, 12, mask)])

/-- A DEGRADED report to the crown (R67), with the places of a SLOW_REPORT (DESIGN CHOICE, notes/assumptions/16.md). -/
def State.reportDegraded (s : State) (c : Nat) : State :=
  if s.isCrown then (if s.autoExclude then s.excludeOwn (2 ^ c) else s)
  else s.sendReport (bodyOf 32 [(0, 2, s.rack), (2, 1, 1), (4, 12, 2 ^ c)])

/-- A missing-contributor notice from a rack names modules, and the crown excludes them (R340). -/
def State.excludeNamed (s : State) (rack step mask : Nat) : State :=
  if !s.isCrown || !s.autoExclude then s
  else
    match (s.crown.members ++ [(s.rank, s.rack)]).find? (fun m => m.2 == rack) with
    | some m => s.excludeRanks step (namedRanks m.1 mask s.jobSize)
    | none => s

/-! ### Group time and the job barrier (R333, R337) -/

/-- Group time: the crown's GTC, from the last SYNC on a module that follows. -/
def State.groupTime (s : State) : Nat :=
  match s.crown.lastSync with
  | some (c, l) => if s.holdsTop || s.crown.period = 0 then s.board.gtc else c + (s.board.gtc - l) * s.crown.crownPer / s.crown.period
  | none => s.board.gtc

/-- The local GTC of an instant in group time. -/
def State.localTime (s : State) (t : Nat) : Nat :=
  match s.crown.lastSync with
  | some (c, l) => if s.holdsTop || s.crown.crownPer = 0 then t else l + (t - c) * s.crown.period / s.crown.crownPer
  | none => t

/-- The children whose ARRIVE has come, and the members below them. -/
def State.barCount (s : State) : Nat := (s.crown.barKids.map Prod.snd).sum + 1

/-- A node whose own partition barrier has completed and whose children have all sent ARRIVE sends ARRIVE to its parent; the crown sends
RELEASE, one one-way bound ahead of its group time. The identifier is that of the children's ARRIVEs; a leaf's is open
(notes/assumptions/28.md). -/
def State.barTry (s : State) : State :=
  if s.role = 0 ∨ !s.crown.barOwn ∨ s.crown.barKids.length < s.childRanks.length then s
  else
    let (k, s0) := match s.crown.barId with
      | some i => (i, s)
      | none => s.freeNat
    let id := k % 2 ^ 32
    let n := s0.barCount
    let s1 := { s0 with crown := { s0.crown with barOwn := false, barKids := [], barId := some id } }
    if s1.holdsTop then
      let t := s1.groupTime + s1.oneWay
      ({ s1 with crown := { s1.crown with releaseAt := some t } }).toChildren 0 0x05 (bodyOf 32 [(0, 4, id), (8, 8, t)])
    else s1.toParent 0 0x04 (bodyOf 32 [(0, 4, id), (4, 4, n)])

/-- The on-wafer barrier of a partition has completed. -/
def State.barOwnDone (s : State) : State :=
  if s.role = 0 then s else ({ s with crown := { s.crown with barOwn := true } }).barTry

/-- Changes the crown's part of the state. -/
def State.onCrown (s : State) (f : Crown → Crown) : State := { s with crown := f s.crown }

/-- The grid and the group's time follow a crown. -/
def State.isFollower (s : State) : Bool := decide (s.role ≠ 0) && !s.holdsTop

/-- Asks the parent for the delay of its link. -/
def State.askDelay (s : State) : State :=
  if !s.isFollower then s
  else (s.onCrown (fun c => { c with delaySent := some s.board.gtc })).toParent 0 0x02 (bodyOf 32 [(0, 8, s.board.gtc)])

end Sys2Proof.Machine
end

