-- ==== Sys2Proof/Machine/Sniash.lean ====
section
/-! DEFINITION. How an operator starts, what it reports and how it completes (05_sniash: R133, R134, R138 to R141, R162, R163;
04_sparsity: R95 to R102, R108, R109; 03: R73). Each operator supplies an `OpDef`; what is common to all stands here. -/
namespace Sys2Proof.Machine

/-! ### What an operator is -/

/-- What an operator yields when it runs: an error cause with its slot, or its writes, counts and digest. -/
structure RunOut where
  cause : Nat
  slot : Nat
  /-- The outputs are left unchanged although the operator fails (R143). -/
  keep : Bool
  writes : List (Nat × Bytes)
  sats : Nat
  nonfin : Nat
  aux : Nat
  flag : Bool
  digest : Option Nat
  /-- Block sums made NaN by pruned weights (R108). -/
  pruned : Nat
  /-- Free values it has used, from the state's next one on. -/
  drawn : Nat
  deriving DecidableEq, Repr

/-- Success with nothing written. -/
def RunOut.nil : RunOut :=
  { cause := 0, slot := 7, keep := false, writes := [], sats := 0, nonfin := 0, aux := 0, flag := false, digest := none, pruned := 0,
    drawn := 0 }

/-- An operator of the catalogue (R141). -/
structure OpDef where
  opcode : Nat
  subops : List Nat
  lowest : Nat
  /-- NTENS values it takes. -/
  arity : Desc → List Nat
  /-- Accepted FMT codes of a slot (R35, R128, R493). -/
  fmts : Desc → Nat → List Nat
  /-- The output slots. -/
  outs : Desc → List Nat
  /-- The slot that breaks a pairing of formats, if any. -/
  pair : Desc → Option Nat
  /-- The first slot with a wrong shape, if any (check 6). -/
  shape : Desc → Option Nat
  /-- A parameter is out of range (check 9). -/
  param : State → Desc → Bool
  /-- STEP, MIGRATE or a collective, which overlaps no other operator (R138). -/
  alone : Bool
  /-- What it computes, given the context. -/
  run : State → Nat → Desc → RunOut

/-- The catalogue's opcodes and SUBOPs (R141, R146, R149, R151). -/
def catalogue : List (Nat × List Nat) :=
  [(0x01, [0]), (0x02, [0]), (0x10, [0, 1]), (0x11, [0, 1]), (0x20, elemSubops), (0x21, [0, 1]), (0x22, [0]),
   (0x23, [0, 1, 2, 3, 16, 17, 18, 19]), (0x30, [0]), (0x31, [0]), (0x40, [1, 2, 3, 4, 5, 6, 7, 8]), (0x41, [0]), (0x50, [0]),
   (0x51, [0]), (0x52, [0, 1]), (0x60, [0, 1, 2, 3]), (0x70, [0]), (0x71, [0]), (0x72, [0]), (0x80, [0, 1, 2])]

/-- OPCODE and SUBOP are in the catalogue. -/
def Desc.known (d : Desc) : Bool := catalogue.any (fun e => e.1 == d.opcode && e.2.contains d.subop)

/-- A descriptor that this operator's command starts: its own, or one that names no operator, which fails check 2. -/
def OpDef.takes (o : OpDef) (d : Desc) : Bool := (o.opcode == d.opcode && o.subops.contains d.subop) || !d.known

/-- Formats by use (R128, R493). -/
def fNum : List Nat := [0, 1, 2, 3, 4, 5, 6, 7, 8, 9]
def fF32 : List Nat := [0]
def fI32 : List Nat := [10]
def fMx : List Nat := [3, 4, 5, 6, 7, 8, 9]
def fFlt : List Nat := [0, 1, 2]
def fAny : List Nat := [0, 1, 2, 3, 4, 5, 6, 7, 8, 9, 10, 11]

/-- The operand pairings of R35, by FMT code. -/
def pairOk (a b : Nat) : Bool :=
  ([3, 4, 5, 6, 7].contains a && [3, 4, 5, 6, 7].contains b) || ([8, 9].contains a && [8, 9].contains b) ||
    (a == b && [0, 1, 2].contains a)

/-- Slots in use. -/
def Desc.used (d : Desc) : List Nat := List.range (min d.ntens 6)

/-! ### Validation (R133, R134) -/

/-- Check 1 (R134). -/
def OpDef.levelBad (o : OpDef) (pin : Nat) (d : Desc) : Bool :=
  decide (d.level = 0) || decide (d.level > 3) || decide (d.level > pin) || (d.known && decide (o.lowest > d.level)) ||
    (decide (d.level = 1) &&
      ((decide (16 < d.granule) && decide (d.granule ≤ 32)) || d.sround ||
        d.used.any (fun i => [5, 6, 7, 9].contains (d.slot i).fmt || (decide (2 ≤ (d.slot i).kind) && decide ((d.slot i).kind ≤ 5)))))

/-- A slot that may be in a sparse kind (R95): a GEMM weight, or a tensor of RELAY SUBOP 0. -/
def Desc.sparseSlot (d : Desc) (i : Nat) : Bool := (d.opcode == 0x10 && i == 1) || (d.opcode == 0x52 && d.subop == 0)

/-- A slot that may be lane-tiled (R127). -/
def Desc.laneSlot (d : Desc) (i : Nat) : Bool := d.sparseSlot i || (d.opcode == 0x11 && (i == 1 || i == 2))

/-- Check 4 on one slot: format, arrangement and sparse kind (R95, R96, R127, R128, R493). -/
def OpDef.slotBad (o : OpDef) (d : Desc) (i : Nat) : Bool :=
  let t := d.slot i
  !(o.fmts d i).contains t.fmt || decide (t.arr > 2) || decide (t.kind > 5) ||
    (decide (t.kind ≠ 0) && (!d.sparseSlot i || !fMx.contains t.fmt || t.arr == 1)) || (t.arr == 2 && !d.laneSlot i)

/-- The scale-table entry of a handle: scale array and metadata array address (R129). -/
def State.scaleEntry (s : State) (n h : Nat) : Nat × Nat :=
  (natAt s.rdByte (s.sbase n + 16 * h) 8 % 2 ^ 52, natAt s.rdByte (s.sbase n + 16 * h + 8) 8 % 2 ^ 52)

/-- A slot whose scales or metadata come through its handle. -/
def Slot.byHandle (t : Slot) : Bool := (t.f.isMx || isNm t.kind) && !t.inlineMeta

/-- Check 5 on one slot (R129). -/
def State.scaleBad (s : State) (n : Nat) (t : Slot) : Bool := t.byHandle && (t.scale == 0 || decide (t.scale ≥ s.ssize n))

/-- The addresses of a slot's scale and metadata arrays. -/
def State.auxOf (s : State) (n : Nat) (t : Slot) : Nat × Nat := if t.byHandle then s.scaleEntry n t.scale else (0, 0)

/-- The tensor that a slot names. -/
def State.ten (s : State) (n : Nat) (d : Desc) (i : Nat) : Ten :=
  readTen s.rdByte (d.slot i) (s.auxOf n (d.slot i)).1 (s.auxOf n (d.slot i)).2

/-- What a slot covers: its tensor, scale array and metadata array, each named by a part number. MIGRATE names a plain range of
bytes (R156). -/
def State.covers (s : State) (n : Nat) (d : Desc) (i : Nat) : List (Nat × Range) :=
  let t := d.slot i
  if d.opcode == 0x80 then [(0, ⟨t.addr, t.addr + t.rows * t.cols * t.batch⟩)]
  else
    let a := s.auxOf n t
    [(0, ⟨t.addr, t.addr + t.extent⟩)] ++ (if t.scaleBytes = 0 then [] else [(1, ⟨a.1, a.1 + t.scaleBytes⟩)]) ++
      (if t.metaBytes = 0 then [] else [(2, ⟨a.2, a.2 + t.metaBytes⟩)])

/-- Two ranges share a byte. -/
def Range.meets (a b : Range) : Bool := decide (a.lo < b.hi) && decide (b.lo < a.hi)

/-- Everything the descriptor's slots cover: slot, part, range. -/
def State.coverAll (s : State) (n : Nat) (d : Desc) : List (Nat × Nat × Range) :=
  d.used.flatMap (fun i => (s.covers n d i).map (fun c => (i, c.1, c.2)))

/-- An ELEM, NORM or SOFTMAX output that occupies exactly the bytes of its T0 (R133, check 8). -/
def OpDef.inPlace (o : OpDef) (d : Desc) (i : Nat) : Bool :=
  let a := d.slot 0
  let b := d.slot i
  [0x20, 0x21, 0x22].contains d.opcode && (o.outs d).contains i && decide (a.addr = b.addr) && decide (a.fmt = b.fmt) &&
    decide (a.arr = b.arr) && decide (a.kind = b.kind) && decide ((a.rows, a.cols, a.batch) = (b.rows, b.cols, b.batch))

/-- Check 8 on one output slot. -/
def State.overlapBad (s : State) (n : Nat) (o : OpDef) (d : Desc) (i : Nat) : Bool :=
  let all := s.coverAll n d
  (all.filter (fun x => x.1 == i)).any (fun x => all.any (fun y =>
    !(y.1 == x.1 && y.2.1 == x.2.1) && x.2.2.meets y.2.2 &&
      !(o.inPlace d i && y.1 == 0 && y.2.1 == x.2.1 && decide (x.2.2 = y.2.2))))

/-- Check 7 for MIGRATE seal (R189): whole pages, mapped, WRITABLE, owned by the issuing context. -/
def State.sealBad (s : State) (n : Nat) (d : Desc) : Bool :=
  let t := d.slot 0
  let k := t.rows * t.cols * t.batch
  d.opcode == 0x80 && d.subop == 2 &&
    (decide (t.addr % Lay.page ≠ 0) || decide (k % Lay.page ≠ 0) ||
      !(pagesOf t.addr k).all (fun p => (s.tier.entry p).valid && (s.tier.entry p).writable && decide ((s.tier.entry p).ctx = n)))

/-- The hash accumulator is in use on the partition's lead core (R110). -/
def State.haccUsed (s : State) (n : Nat) : Bool := s.board.flag (Pg.spx (s.lead n)) F.spxStatusHaccMode

/-- The checks of R133 in order: cause and slot; cause 0 when all pass. -/
def State.validate (s : State) (n : Nat) (o : OpDef) (d : Desc) : Nat × Nat :=
  let mig := d.opcode == 0x80
  if o.levelBad (s.cf n F.opqCtxCfgLevelPin) d then (Cause.level, 7)
  else if !d.known then (Cause.opcode, 7)
  else if d.granule > 32 ∨ d.epi > 5 then (Cause.parameter, 7)
  else if !(o.arity d).contains d.ntens then (Cause.format, 7)
  else if !mig && !s.haccUsed n && d.used.any (fun i => (d.slot i).arr == 3) &&
      ((d.used.find? (o.slotBad d)).map (fun i => (d.slot i).arr == 3)).getD false then (Cause.haccMisuse, 7)
  else
    match (if mig then none else (d.used.find? (o.slotBad d)).orElse (fun _ => o.pair d)),
        (if mig then none else d.used.find? (fun i => s.scaleBad n (d.slot i))),
        (d.used.find? (fun i => decide ((d.slot i).rows = 0) || decide ((d.slot i).cols = 0))).orElse (fun _ => o.shape d) with
    | some i, _, _ => (Cause.format, i)
    | none, some i, _ => (Cause.scale, i)
    | none, none, some i => (Cause.shape, i)
    | none, none, none =>
      match d.used.find? (fun i => (s.covers n d i).any (fun c => !s.inSlice n c.2.lo (c.2.hi - c.2.lo) ||
          ((o.outs d).contains i && !s.inOut n c.2.lo (c.2.hi - c.2.lo)))) with
      | some i => (Cause.address, i)
      | none =>
        if s.sealBad n d then (Cause.address, 0)
        else
          match ((o.outs d).filter (fun i => decide (i < d.ntens))).find? (s.overlapBad n o d) with
          | some i => (Cause.overlap, i)
          | none => if o.param s d then (Cause.parameter, 7) else (0, 7)

/-- A matrix operand in the fill half of a core's weight double buffer (R73): the core. -/
def State.wbufHit (s : State) (n : Nat) (d : Desc) : Option Nat :=
  let slots := if d.opcode == 0x10 then [0, 1] else if d.opcode == 0x11 then [0, 1, 2] else []
  ((s.coverAll n d).filter (fun x => slots.contains x.1)).findSome? (fun x =>
    (List.range 96).find? (fun c =>
      let fill := 1 - s.board.fld (Pg.core c) F.coreWbufStateComputeHalf
      let lo := c * Lay.window + (s.wbufLo c + fill * s.wbufHalf c) * 2 ^ 20
      s.coreEnabled c && x.2.2.meets ⟨lo, lo + s.wbufHalf c * 2 ^ 20⟩))

/-! ### Running -/

/-- The cause of a sparse operand that fails its check while it is read (R99, R102), with its slot. RELAY writes T1 and reads only T0. -/
def State.sparseBad (s : State) (n : Nat) (d : Desc) : Option (Nat × Nat) :=
  (d.used.filter (fun i => d.sparseSlot i && !(d.opcode == 0x52 && i == 1))).findSome? (fun i =>
    let t := d.slot i
    if !nmOk s.rdByte t (s.auxOf n t).2 then some (Cause.sparseIndex, i)
    else if !recsOk s.rdByte t then some (Cause.sparseRecord, i) else none)

/-- The result of an operator from its output tensors: laid out by their slots, digested on the given slot (R51, R141). -/
def State.result (s : State) (n : Nat) (d : Desc) (dig : Nat) (r : OpOut) (pruned : Nat) : RunOut :=
  let ws := r.tens.map (fun p => writeTen (d.slot p.1) (s.auxOf n (d.slot p.1)).1 (s.auxOf n (d.slot p.1)).2 p.2)
  if ws.any Option.isNone then { RunOut.nil with cause := Cause.pattern }
  else
    { cause := 0, slot := 7, keep := false, writes := (ws.map (fun w => w.getD [])).flatten, sats := r.sats, nonfin := r.nonfin,
      aux := r.aux, flag := r.flag, pruned := pruned, drawn := 0,
      digest := if d.digestEn then ((r.tens.find? (fun p => p.1 == dig)).map (fun p => digest (digestStream p.2))) else none }

/-- Free bytes over a list of ranges: an output that the spec leaves undefined (R99, R102, R162). -/
def State.freeOut (s : State) : List Range → List (Nat × Bytes) × State
  | [] => ([], s)
  | r :: rest =>
    let (bs, s1) := s.freeBytes (r.hi - r.lo)
    let (ws, s2) := s1.freeOut rest
    ((r.lo, bs) :: ws, s2)

/-- Adds a free number to a counter of every core of a partition: a count that follows the library's schedule (R94, R494). -/
def State.freeCount (s : State) (cores : List Nat) (page : Nat → Nat) (off : Nat) : State :=
  cores.foldl (fun s c =>
    let (k, s1) := s.freeNat
    s1.onBoard (fun b => b.inc (page c) off k)) s

/-- Core c takes the sparse path for a bitmap tile of that COUNT (R103). -/
def State.sparsePath (s : State) (c count : Nat) : Bool :=
  s.board.flag (Pg.spx c) F.spxControlBitmapEn && decide (count ≤ s.board.fld (Pg.spx c) F.spxThresholdCountMax)

/-- The counters and flags of the cores that an operator's work touches (R94, R108, R109, R124, R494): counts that the spec
fixes go to the lead core (DESIGN CHOICE, notes/assumptions/13.md), counts of the schedule are free. A path that
no tile takes counts nothing (R94, R103). -/
def State.coreCounts (s : State) (n : Nat) (d : Desc) (r : RunOut) : State :=
  let cores := s.partCores (s.partOf n)
  let lead := s.lead n
  let matrix := d.opcode == 0x10 || d.opcode == 0x11
  let kind := (d.slot 1).kind
  let tiled := d.opcode == 0x10 && kind == 5
  let counts := if tiled then (List.range (d.slot 1).tiles).map (recCount s.rdByte (d.slot 1)) else []
  let sparse := cores.filter (fun c => counts.any (s.sparsePath c))
  let dense := cores.filter (fun c => counts.any (fun k => !s.sparsePath c k))
  let s1 := s.onBoard (fun b =>
    let b1 := (b.inc (Pg.core lead) Cn.coreSatCount r.sats).inc (Pg.core lead) Cn.coreNonfiniteCount r.nonfin
    let b2 := if r.pruned = 0 then b1 else
      (b1.inc (Pg.spx lead) Cn.spxPrunedNonfinite r.pruned).raise (Pg.spx lead) F.spxEventPrunedNonfinite
    let b3 := if d.opcode == 0x10 && kind == 5 && d.quarter then
        (b2.inc (Pg.spx lead) Cn.spxQuarterDemoted 1).raise (Pg.spx lead) F.spxEventQuarterDemoted
      else b2
    let b4 := if r.cause = Cause.sparseIndex then
        (b3.inc (Pg.spx lead) Cn.spxIndexErrors 1).raise (Pg.spx lead) F.spxEventIndexError
      else if r.cause = Cause.sparseRecord then
        (b3.inc (Pg.spx lead) Cn.spxRecordErrors 1).raise (Pg.spx lead) F.spxEventRecordError
      else b3
    cores.foldl (fun b c => if matrix then (b.setFld (Pg.core c) F.coreStatusQuarter (b2n (d.quarter && !(kind == 5)))).setFld
      (Pg.spx c) F.spxStatusSparseActive (b2n (d.opcode == 0x10 && !(kind == 0))) else b) b4)
  let s2 := if matrix then
      (s1.freeCount cores Pg.core Cn.coreArrayActiveCycles).freeCount (if tiled then dense else cores) Pg.core Cn.coreKsteps
    else s1.freeCount cores Pg.core Cn.coreStrandsLaunched
  let s3 := s2.freeCount cores Pg.core Cn.coreBankWaitCycles
  if d.opcode == 0x10 && isNm kind then (s3.freeCount cores Pg.spx Cn.spxNmBlocks)
  else if tiled then
    ((((s3.freeCount dense Pg.spx Cn.spxTilesDense).freeCount sparse Pg.spx Cn.spxTilesSparse).freeCount sparse Pg.spx
      Cn.spxValuesDealt).freeCount sparse Pg.spx Cn.spxSparseCycles).freeCount cores Pg.spx Cn.spxLaneWaitCycles
  else s3

/-- The record of an operator that starts now. -/
def State.opRecord (s : State) (n q : Nat) (d : Desc) : Rec :=
  { Rec.blank with replay := decide ((s.ctx n).replayLeft ≠ 0), opcode := d.opcode, level := d.level, ctx := n, tag := d.tag,
                   qindex := q, gtcStart := s.board.gtc, irq := d.irq }

/-- May operator `i` start before the incomplete operator `j` completes (R138)? A layer mark holds back later operators (R245). -/
def mayPass (d : Desc) (alone : Bool) (tensors outputs : List Range) (j : OpRun) : Bool :=
  let dj := Desc.ofBytes j.desc
  let aloneJ := [0x02, 0x70, 0x71, 0x72, 0x80].contains dj.opcode
  !d.fence && !alone && !aloneJ && !j.mark && !tensors.any (fun r => j.outputs.any r.meets) &&
    !outputs.any (fun r => j.tensors.any r.meets)

/-- The context can start an operator now: in SERVICE, running, its ring has room, fewer than 32 in flight, nothing that holds
it back; the descriptor at CI (R137, R138, R140, R157). -/
def State.nextDesc (s : State) (n : Nat) : Option Bytes :=
  let c := s.ctx n
  if s.inService && !s.board.flag Pg.tk F.tkStatusHeld && s.cstate n == Cs.running && decide (s.ci n ≠ c.actPi) &&
      s.ringRoom n && c.owed.isEmpty && decide ((s.live n).length < 32) && !c.disablePending && !c.loadPending && !c.paused then
    (c.fetched.find? (fun e => e.1 == s.ci n)).map Prod.snd
  else none

/-- Takes the descriptor at CI: CI advances, the replay count falls, reserved bits are counted (R132). -/
def State.takeDesc (s : State) (n : Nat) (d : Desc) : State :=
  let q := s.ci n
  ((s.setCf n F.opqCtxQindexCi ((q + 1) % 65536)).updCtx n (fun c =>
    { c with fetched := c.fetched.filter (fun e => !(e.1 == q)), replayLeft := c.replayLeft - 1 })).onBoard (fun b =>
      when d.rsvd (fun b => b.inc Pg.opq0 Cn.opq0RsvdNonzero 1) b)

/-- Adds an operator to those in flight. -/
def State.addOp (s : State) (n : Nat) (o : OpRun) : State := (s.updCtx n (fun c => { c with ops := c.ops ++ [o] })).syncFlight n

/-- An operator that fails before it starts: its error record is owed in queue order, and it writes nothing (R133). -/
def State.failOp (s : State) (n q : Nat) (raw : Bytes) (d : Desc) (rec0 : Rec) (cause slot : Nat) : State :=
  let s1 := s.addOp n { qindex := q, desc := raw, record := { rec0 with type := 2, cause := cause, slot := slot, gtcEnd := s.board.gtc },
                        complete := true, tensors := [], outputs := [], outW := [], mark := false }
  let s2 := s1.onBoard (fun b =>
    if cause = Cause.level then (b.inc Pg.opq0 Cn.opq0LevelErrors 1).raise Pg.opq0 F.opq0EventLevelError
    else if cause = Cause.haccMisuse then b.raise (Pg.spx (s.lead n)) F.spxEventHaccMisuse
    else b)
  let _ := d
  s2.drainRecs n

/-- The operator at the context's CI starts, when it is one that `o` takes and R138 lets it start; else nothing happens. -/
def State.startOp (s : State) (o : OpDef) (n : Nat) : State :=
  match s.nextDesc n with
  | none => s
  | some raw =>
    let d := Desc.ofBytes raw
    let cov := s.coverAll n d
    let tensors := cov.map (fun x => x.2.2)
    let outputs := (cov.filter (fun x => (o.outs d).contains x.1)).map (fun x => x.2.2)
    if !o.takes d || !(s.live n).all (mayPass d o.alone tensors outputs) then s
    else
      let q := s.ci n
      let rec0 := s.opRecord n q d
      let v := s.validate n o d
      let s0 := s.takeDesc n d
      if v.1 ≠ 0 then s0.failOp n q raw d rec0 v.1 v.2
      else
        let s1 := s0.onBoard (fun b => b.inc Pg.opq0 Cn.opq0OpsStarted 1)
        match s.wbufHit n d with
        | some c => (s1.onBoard (fun b => b.raise (Pg.core c) F.coreEventWbufConflict)).failOp n q raw d rec0 Cause.wbufConflict 7
        | none =>
          let r := match s.sparseBad n d with
            | some e => { RunOut.nil with cause := e.1 }
            | none => o.run s n d
          let s2 := ({ s1 with freeCtr := s1.freeCtr + r.drawn }).coreCounts n d r
          let (ws, s3) := if r.cause ≠ 0 && !r.keep then s2.freeOut outputs else (r.writes, s2)
          let rec1 := { rec0 with ticks := 1, type := if r.cause = 0 then 1 else 2, cause := r.cause, slot := r.slot, nonfinite := r.flag,
                                  digestValid := r.digest.isSome, digest := r.digest.getD 0, satCount := r.sats,
                                  nonfiniteCount := r.nonfin, aux := r.aux }
          s3.addOp n { qindex := q, desc := raw, record := rec1, complete := false, tensors := tensors, outputs := outputs,
                       outW := ws, mark := false }

/-- An operator in flight completes: its writes are committed, its record is owed in queue order (R140). -/
def State.completeOp (s : State) (n q : Nat) : State :=
  match (s.live n).find? (fun o => o.qindex == q) with
  | none => s
  | some o =>
    let s1 := (s.wrAll o.outW).updCtx n (fun c =>
      { c with ops := c.ops.map (fun x => if x.qindex == q && !x.complete then
          { x with complete := true, outW := [], record := { x.record with gtcEnd := s.board.gtc } } else x) })
    let s2 := s1.onBoard (fun b => if o.record.type = 1 then
      (b.inc Pg.opq0 Cn.opq0OpsCompleted 1).inc (ctxPage n) (Cn.opqOpsDone (n % 16)) 1 else b)
    (s2.idleWork n).drainRecs n

/-- An operator in flight ends with an error cause while it runs; its outputs become free bytes. -/
def State.errOp (s : State) (n q cause aux : Nat) : State :=
  match (s.live n).find? (fun o => o.qindex == q) with
  | none => s
  | some o =>
    let (ws, s1) := s.freeOut o.outputs
    let fail (r : Rec) : Rec :=
      { r with type := 2, cause := cause, slot := 7, aux := aux, digestValid := false, digest := 0, gtcEnd := s.board.gtc }
    let s2 := (s1.wrAll ws).updCtx n (fun c =>
      { c with ops := c.ops.map (fun x => if x.qindex == q && !x.complete then
          { x with complete := true, outW := [], record := fail x.record } else x) })
    (s2.idleWork n).drainRecs n

/-! ### NOP and STEP (R156, R163, R245) -/

/-- NOP: no slots; a layer mark when PARAM0[31] is 1 (R245). -/
def nopDef : OpDef :=
  { opcode := 0x01, subops := [0], lowest := 1, arity := fun _ => [0], fmts := fun _ _ => [], outs := fun _ => [],
    pair := fun _ => none, shape := fun _ => none, param := fun _ _ => false, alone := false, run := fun _ _ _ => RunOut.nil }

/-- STEP: no slots; PARAM0 holds the step number. -/
def stepDef : OpDef := { nopDef with opcode := 0x02, alone := true }

/-- STEP completes and marks the replay point (R163, R259). -/
def State.markStep (s : State) (n q step : Nat) : State :=
  let s1 := (s.setCf n F.opqCtxLastStepQindex q).updCtx n (fun c => { c with stepped := true, stepNo := step })
  { s1 with crown := { s1.crown with stepEnd := true } }

/-- The partition's streaming plan sees a completed STEP at the next boundary (R235). -/
def Feed.init : Feed :=
  { cur := none, next := none, armed := none, disarm := false, stepDone := false, invalid := false, fillStep := 0,
    fillLayer := 0, fillNext := false, comp := none, batts := [],
    arrived := [], mark := none, done := false, sampled := false }
def State.feed (s : State) (p : Nat) : Feed := Tbl.get (fun _ => Feed.init) s.feeds p
def State.setFeed (s : State) (p : Nat) (f : Feed) : State := { s with feeds := Tbl.set (fun _ => Feed.init) s.feeds p f }

/-- Whether operator q of context n has just been added and is still in flight. -/
def State.inFlight (s : State) (n q : Nat) : Bool := (s.live n).any (fun o => o.qindex == q)

/-- NOP starts and completes at once; a layer mark of the partition's streaming context waits for the swap, and one of a
context that streams no plan completes at once (R156, R245). -/
def State.runNop (s : State) (n : Nat) : State :=
  let q := s.ci n
  let raw := s.nextDesc n
  let s1 := s.startOp nopDef n
  if !s1.inFlight n q then s1
  else
    let d := Desc.ofBytes (raw.getD [])
    let p := s.partOf n
    let f := s1.feed p
    let streams := match f.cur with
      | some pl => pl.ctx == n
      | none => false
    if (d.param 0).testBit 31 && streams then
      (s1.updCtx n (fun c => { c with ops := c.ops.map (fun o => if o.qindex == q && !o.complete then { o with mark := true } else o) })).setFeed
        p { f with mark := some q }
    else s1.completeOp n q

/-- STEP starts and completes at once (R156, R163). -/
def State.runStep (s : State) (n : Nat) : State :=
  let q := s.ci n
  let raw := s.nextDesc n
  let s1 := s.startOp stepDef n
  if !s1.inFlight n q then s1
  else
    let d := Desc.ofBytes (raw.getD [])
    let p := s.partOf n
    let s2 := (s1.markStep n q (d.param 0)).completeOp n q
    if ((s2.feed p).cur.map (fun pl => pl.ctx == n)).getD false then s2.setFeed p { s2.feed p with stepDone := true } else s2

/-- NOP (R156). -/
def execNop (ctx : Nat) (s : State) : Host.Outcome State Fault Refusal := done s (s.runNop ctx)

/-- STEP (R156, R163). -/
def execStep (ctx : Nat) (s : State) : Host.Outcome State Fault Refusal := done s (s.runStep ctx)

/-! ### Commands on the queue and on operators in flight -/

/-- BUDGET (R162): an operator that has run TICK_BUDGET ticks without completing ends with cause BUDGET; its output is
undefined. -/
def execBudget (ctx qindex : Nat) (s : State) : Host.Outcome State Fault Refusal :=
  done s (match (s.live ctx).find? (fun o => o.qindex == qindex) with
    | some o =>
      let b := (Desc.ofBytes o.desc).budget
      if b ≠ 0 ∧ o.record.ticks ≥ b then s.errOp ctx qindex Cause.budget 0 else s
    | none => s)

/-- DOORBELL (R136): from the link that does not own the module it is discarded and counted. -/
def execDoorbell (link : Link) (ctx : Nat) (value : Word) (s : State) : Host.Outcome State Fault Refusal :=
  done s (
    let own := s.board.owner == some (linkIdx link)
    let s0 := if own || !s.answers then s else s.dbReject
    hostWrite link Pg.opq0 (0x100 + 4 * ctx) (fun s =>
      let s1 := s.doorbell ctx (value.toNat % 65536)
      let hi := value.toNat / 65536 * 65536
      if hi = 0 then s1 else s1.onBoard (fun b => b.levelEvt Pg.opq0 (0x100 + 4 * ctx) hi (linkIdx link))) s0)

/-- DESCRIPTOR_FETCH (R137): for a READY or RUNNING context whose CI is not yet fetched. -/
def execDescriptorFetch (ctx : Nat) (s : State) : Host.Outcome State Fault Refusal :=
  done s (if (s.cstate ctx = Cs.ready ∨ s.cstate ctx = Cs.running) ∧ s.ci ctx ≠ (s.ctx ctx).actPi then s.fetch ctx else s)

/-- ENABLE (R158). -/
def execEnable (link : Link) (ctx : Nat) (s : State) : Host.Outcome State Fault Refusal :=
  done s (hostWrite link (ctxPage ctx) ((F.opqCtxCmdEnable (ctx % 16)).off) (fun s => s.enable ctx) s)

/-- CONTEXT_RESET (R165). -/
def execContextReset (link : Link) (ctx : Nat) (s : State) : Host.Outcome State Fault Refusal :=
  done s (hostWrite link (ctxPage ctx) ((F.opqCtxCmdReset (ctx % 16)).off) (fun s => s.ctxReset ctx) s)

end Sys2Proof.Machine
end

