-- ==== Sys2Proof/Machine/CoreEvents.lean ====
section
/-! DEFINITION. What happens in a core (03_large_cores: R67, R71, R76 to R87; 04_sparsity: R110 to R114; 11: R339). -/
namespace Sys2Proof.Machine

/-! ### Tick tasks (R85 to R87) -/

/-- Latches a task's slack (R86, R87). -/
def State.latchSlack (s : State) (c : Nat) (slack : Int) : State :=
  let old := signedOf 64 (s.board.cnt (Pg.core c) Cn.coreSlackMin)
  let m := if (s.core c).slackSeen then min old slack else slack
  (s.setCore c { s.core c with slackSeen := true }).onBoard (fun b =>
    (b.setCnt (Pg.core c) Cn.coreSlackLast (codeOf 64 slack)).setCnt (Pg.core c) Cn.coreSlackMin (codeOf 64 m))

/-- The running task completes at a GTC. After an overrun the slack is negative at once; otherwise the boundary latches it. -/
def State.taskDone (s : State) (c at_ : Nat) : State :=
  let x := s.core c
  match x.task, x.doneAt with
  | some t, none =>
    let s1 := (s.setCore c { x with doneAt := some at_, strands := [] }).onBoard (fun b =>
      (({ b with gtc := max b.gtc at_ }.inc (Pg.core c) Cn.coreTasksDone 1).setFld (Pg.core c) F.coreStatusBusy 0).setFld (Pg.core c)
        F.coreStrandStateLive 0)
    let slack : Int := match x.overran with
      | some t0 => (t0 : Int) - (at_ : Int)
      | none => 0
    let s2 := match x.overran with
      | some t0 => (s1.latchSlack c slack).onBoard (fun b => b.inc (Pg.core c) Cn.coreOverrunCycles (at_ - t0))
      | none => s1
    s2.onBoard (fun b =>
      let b1 := b.trace (c / 4) (c % 4) 2 t.1 (toLE 8 (codeOf 64 slack))
      match x.overran with
      | some t0 => b1.trace (c / 4) (c % 4) 8 t.1 (toLE 8 (at_ - t0))
      | none => b1)
  | _, _ => s

/-- TASK_COMPLETE (R85). -/
def execTaskComplete (core at_ : Nat) (s : State) : Host.Outcome State Fault Refusal :=
  done s (if s.coreEnabled core then s.taskDone core at_ else s)

/-! ### Slow cores (R339) -/

/-- TK.SLOW_CORES as a mask. -/
def Board.slowMask (b : Board) : Nat :=
  b.fld Pg.tk F.tkSlowCoresLoCores + 2 ^ 32 * b.fld Pg.tk F.tkSlowCoresMidCores + 2 ^ 64 * b.fld Pg.tk F.tkSlowCoresHiCores

/-- Stores TK.SLOW_CORES. -/
def Board.setSlowMask (b : Board) (m : Nat) : Board :=
  b.setFlds Pg.tk [(F.tkSlowCoresLoCores, m % 2 ^ 32), (F.tkSlowCoresMidCores, m / 2 ^ 32 % 2 ^ 32), (F.tkSlowCoresHiCores, m / 2 ^ 64)]

/-- Sets or clears a core's SLOW flag and reports it. -/
def State.setSlow (s : State) (c : Nat) (set : Bool) : State :=
  let m := s.board.slowMask
  let m1 := if set then setBit m c else clearBit m c
  let s1 := s.onBoard (fun b =>
    let b1 := (b.setFld (Pg.core c) F.coreStatusSlow (b2n set)).setSlowMask m1
    if set then (b1.inc Pg.tk Cn.tkSlowFlags 1).raise Pg.tk F.tkEventSlow else b1)
  s1.reportSlow set m1

/-- SLOW_FLAG (R339): COUNT consecutive ticks below the threshold set the flag, COUNT at or above it clear it. -/
def execSlowFlag (core : Nat) (s : State) : Host.Outcome State Fault Refusal :=
  done s (
    let n := s.board.fld Pg.tk F.tkSlowCfgCount
    let x := s.core core
    let isSlow := s.board.flag (Pg.core core) F.coreStatusSlow
    if !s.coreEnabled core then s
    else if !isSlow && decide (x.slowRun ≥ n) then s.setSlow core true
    else if isSlow && decide (x.fastRun ≥ n) then s.setSlow core false
    else s)

/-! ### Stream engine saturation, arrays, working store, strands -/

/-- SE_SATURATED (R83). -/
def execSeSaturated (core : Nat) (s : State) : Host.Outcome State Fault Refusal :=
  done s (if s.coreEnabled core then s.onBoard (fun b => b.raise (Pg.core core) F.coreEventSeSaturated) else s)

/-- ARRAY_CHECK (R67): counted, class B, into the field-defect log; three at one site degrade the core. -/
def execArrayCheck (core site : Nat) (s : State) : Host.Outcome State Fault Refusal :=
  done s (
    if !s.coreEnabled core then s
    else
      let x := s.core core
      let n := Tbl.get (fun _ => 0) x.siteErrs site + 1
      let s1 := (s.setCore core { x with siteErrs := Tbl.set (fun _ => 0) x.siteErrs site n }).onBoard (fun b =>
        (b.inc (Pg.core core) Cn.coreArrayCheckCount 1).raise (Pg.core core) F.coreEventArrayCheck)
      let s2 := (s1.reportCore core).appendDefect ⟨2, 4, core, site⟩
      if decide (n ≥ 3) && !s2.board.flag (Pg.core core) F.coreStatusDegraded then
        (s2.onBoard (fun b => (b.setFld (Pg.core core) F.coreStatusDegraded 1).raise (Pg.core core) F.coreEventDegradedSet)).reportDegraded core
      else s2)

/-- WS_ECC_ERROR (R71). A sector's row is its window offset in units of the 32 banks' 1 KiB stripe (DEDUCED,
notes/assumptions/18.md); a poisoned sector's bytes are free until they are written again (notes/assumptions/20.md). -/
def execWsEccError (core sector : Nat) (uncorrectable : Bool) (s : State) : Host.Outcome State Fault Refusal :=
  done s (
    if !s.coreEnabled core then s
    else if !uncorrectable then
      s.onBoard (fun b => (b.inc (Pg.core core) Cn.coreWsCeCount 1).raise (Pg.core core) F.coreEventWsCe)
    else
      let x := s.core core
      let n := Tbl.get (fun _ => 0) x.wsErrs sector + 1
      let off := 32 * sector
      let s1 := (s.setCore core { x with wsErrs := Tbl.set (fun _ => 0) x.wsErrs sector n,
                                         wsPoison := if x.wsPoison.contains sector then x.wsPoison else x.wsPoison ++ [sector] }).onBoard
        (fun b => (b.inc (Pg.core core) Cn.coreWsUeCount 1).raise (Pg.core core) F.coreEventWsUe)
      let (bs, s1f) := s1.freeBytes 32
      let s2 := (s1f.wrBytes (core * Lay.window + off) bs).reportCore core
      if n = 2 then s2.appendDefect ⟨3, 4, core, (off / 1024 % 32) * 2 ^ 16 + off / 2 ^ 15⟩ else s2)

/-- STRAND_FAULT (R80): the launch ends, and its operator with an error record that holds the strand's index in AUX (DEDUCED,
notes/assumptions/19.md). -/
def execStrandFault (core ctx qindex strand : Nat) (s : State) : Host.Outcome State Fault Refusal :=
  done s (
    if !s.coreEnabled core || !s.inFlight ctx qindex then s
    else
      let s1 := (s.setCore core { s.core core with strands := [] }).onBoard (fun b =>
        ((b.inc (Pg.core core) Cn.coreStrandFaults 1).setFld (Pg.core core) F.coreStrandStateLive 0).raise (Pg.core core)
          F.coreEventStrandFault)
      s1.errOp ctx qindex Cause.strandFault strand)

/-! ### The hash accumulator (R110 to R114) -/

/-- The first of eight slots that is free or holds the key, with the probes beyond the first. -/
def haccProbe (t : List (Nat × Option (Nat × Word))) (key h : Nat) : Nat → Option (Nat × Nat)
  | 0 => none
  | k + 1 =>
    let slot := (h + (7 - k)) % 65536
    match Tbl.get (fun _ => (none : Option (Nat × Word))) t slot with
    | none => some (slot, 7 - k)
    | some e => if e.1 = key then some (slot, 7 - k) else haccProbe t key h k

/-- Room of a spill region (R114). -/
def spillMax : Nat := 524288

/-- The accumulator of a core changes its mode; a pass starts with every entry cleared and the spill region empty (R114). -/
def State.haccMode (s : State) (m c : Nat) : State :=
  let s1 := s.onBoard (fun b => b.setFld (Pg.spx c) F.spxStatusHaccMode m)
  if m = 0 then s1
  else (s1.setCore c { s1.core c with hacc := [] }).onBoard (fun b =>
    b.setFlds (Pg.spx c) [(F.spxStatusSpillActive, 0), (F.spxHaccStateEntriesUsed, 0), (F.spxSpillUsedRecords, 0)])

/-- An update that finds no slot spills, or is dropped when the region is full (R113, R114). -/
def State.haccSpill (s : State) (c key : Nat) (v : Word) : State :=
  let n := s.board.fld (Pg.spx c) F.spxSpillUsedRecords
  if n ≥ spillMax then
    s.onBoard (fun b => (b.inc (Pg.spx c) Cn.spxSpillDropped 1).raise (Pg.spx c) F.spxEventSpillFull)
  else
    (s.wrBytes (Lay.spill c + 8 * n) (toLE 4 key ++ toLE 4 v.toNat)).onBoard (fun b =>
      (((b.setFld (Pg.spx c) F.spxSpillUsedRecords (n + 1)).setFld (Pg.spx c) F.spxStatusSpillActive 1).inc (Pg.spx c)
        Cn.spxHaccSpills 1).raise (Pg.spx c) F.spxEventHaccSpill)

/-- HACC_UPDATE (R112), while the accumulator is in use. -/
def execHaccUpdate (core : Nat) (key value : Word) (s : State) : Host.Outcome State Fault Refusal :=
  done s (
    if !s.coreEnabled core || s.board.fld (Pg.spx core) F.spxStatusHaccMode = 0 then s
    else
      let k := key.toNat
      let x := s.core core
      let h := k * 0x9E3779B1 % 2 ^ 32 / 2 ^ 16
      let s0 := s.onBoard (fun b => b.inc (Pg.spx core) Cn.spxHaccUpdates 1)
      match haccProbe x.hacc k h 8 with
      | some (slot, extra) =>
        let old := Tbl.get (fun _ => (none : Option (Nat × Word))) x.hacc slot
        let v := match old with
          | some e => add32 e.2 value
          | none => add32 zero32 value
        (s0.setCore core { x with hacc := Tbl.set (fun _ => (none : Option (Nat × Word))) x.hacc slot (some (k, v)) }).onBoard (fun b =>
          let b1 := b.inc (Pg.spx core) Cn.spxHaccProbes extra
          if old.isNone then b1.setFld (Pg.spx core) F.spxHaccStateEntriesUsed (b1.fld (Pg.spx core) F.spxHaccStateEntriesUsed + 1) else b1)
      | none => (s0.onBoard (fun b => b.inc (Pg.spx core) Cn.spxHaccProbes 7)).haccSpill core k value)

end Sys2Proof.Machine
end

