-- ==== Sys2Proof/Machine/Fabric.lean ====
section
/-! DEFINITION. Reads, writes, links and the seam (07_fabric: R203 to R224; 03: R81 to R84; 10: R495 as a requester). -/
namespace Sys2Proof.Machine

/-! ### The slot frame (R209, R213) -/

/-- The pattern of R209 for a split: class codes 0 read, 1 write, 2 remote, slot 0 first; ties go read, remote, write. -/
def slotPattern (rd wr rm : Nat) : List Nat :=
  ((List.range 16).foldl (fun (st : Int × Int × Int × List Nat) _ =>
    let r := st.1 + rd
    let m := st.2.1 + rm
    let w := st.2.2.1 + wr
    if r ≥ m ∧ r ≥ w then (r - 16, m, w, st.2.2.2 ++ [0])
    else if m ≥ w then (r, m - 16, w, st.2.2.2 ++ [2])
    else (r, m, w - 16, st.2.2.2 ++ [1])) ((0, 0, 0, []) : Int × Int × Int × List Nat)).2.2.2

/-- FAB.PATTERN of a pattern. -/
def patternWord (p : List Nat) : Nat := packNat 2 p

/-- The longest run of non-read slots, cyclically: of the pattern written twice, at most one frame long. -/
def longestGap (p : List Nat) : Nat :=
  min p.length ((p ++ p).foldl (fun (st : Nat × Nat) c => if c = 0 then (0, st.2) else (st.1 + 1, max st.2 (st.1 + 1))) (0, 0)).2

/-- FAB.LAT_BOUND of a split (R213). -/
def latBound (rd wr rm : Nat) : Nat :=
  let s := ceilDiv 64 rd
  let gap := 1 + longestGap (slotPattern rd wr rm)
  137 + 12 + 5 + 12 * gap + 7 * s + (s - 4)

/-! ### Ports (R204) -/

/-- A port number that names an endpoint. -/
def portOk (p : Nat) : Bool :=
  decide (p < 0x60) || (decide (0x100 ≤ p) && decide (p < 0x340)) || (decide (0x400 ≤ p) && decide (p < 0x418)) ||
    (decide (0x420 ≤ p) && decide (p < 0x438)) || (decide (0x440 ≤ p) && decide (p < 0x444)) ||
    (decide (0x448 ≤ p) && decide (p < 0x44C)) || p == 0x450 || p == 0x451 || p == 0x458 || p == 0x460

/-! ### Stream engine reads (R81 to R83, R216, R219) -/

/-- A legal stream engine request (R81). -/
def readLegal (addr len : Nat) : Bool :=
  decide (len % 64 = 0) && decide (64 ≤ len) && decide (len ≤ 4096) && decide (addr % 64 = 0) && decide (addr / 4096 = (addr + len - 1) / 4096)

/-- The tier that holds an address now. -/
def State.tierOf (s : State) (a : Nat) : Nat := if isPaged (pageOf a) then (s.tier.entry (pageOf a)).tier else 0

/-- Keeps CORE.SE_STATE.IN_USE and the tick's peak. -/
def State.seCount (s : State) (c : Nat) : State :=
  let n := (s.core c).reads.length
  (s.setCore c { s.core c with sePeak := max (s.core c).sePeak n }).onBoard (fun b => b.setFld (Pg.core c) F.coreSeStateInUse n)

/-- The lowest free entry of a core's stream engine. -/
def freeEntry (c : Nat) (rs : List SeRead) : Nat → Option Nat
  | 0 => none
  | k + 1 => if rs.any (fun r => r.tag == 512 * c + (511 - k)) then freeEntry c rs k else some (511 - k)

/-- Is an entry free for a request: a descriptor fetch takes the reserve first, then a general entry (R82)? -/
def State.entryFree (s : State) (c : Nat) (desc : Bool) : Bool :=
  let rs := (s.core c).reads
  let reserve := s.board.fld (Pg.core c) F.coreSeConfigDescReserve
  let nd := (rs.filter SeRead.desc).length
  let inGeneral := (rs.length - nd) + (nd - reserve)
  (desc && decide (nd < reserve)) || decide (inGeneral < 512 - reserve)

/-- The RREAD body of a tier 3 read (R495). -/
def rreadBody (r : RRead) (rack : Nat) : Bytes :=
  bodyOf 32 [(0, 4, r.remote), (4, 4, r.offset), (8, 1, r.len / 64 - 1), (9, 1, r.attempt), (10, 2, r.tag), (12, 1, r.ctx), (16, 2, rack)]

/-- Sends the RREAD of an open tier 3 read on its server group's next group. -/
def State.sendRRead (s : State) (r : RRead) : State := s.sendServer (r.remote / 2 ^ 28) 2 (rreadBody r s.rack)

/-- Issues a read with an entry of its own; a read of a tier 3 page goes out as RREAD. -/
def State.issueRead (s : State) (c : Nat) (r : SeRead) : State :=
  match freeEntry c (s.core c).reads 512 with
  | none => s
  | some e =>
    let tag := 512 * c + e
    let t := s.tierOf r.addr
    let s1 := ((s.setCore c { s.core c with reads := (s.core c).reads ++ [{ r with tag := tag, tier := t }] }).seCount c).onBoard (fun b =>
      b.inc (Pg.core c) Cn.coreSeReads 1)
    if t = 3 then
      let pe := s1.tier.entry (pageOf r.addr)
      let q : RRead := ⟨tag, c, pe.ctx, pe.frame, r.addr % Lay.page, r.len, 1⟩
      ({ s1 with net := { s1.net with rreads := s1.net.rreads ++ [q] } }).sendRRead q
    else s1

/-- A read that overlaps, in a 64 B unit, an unacknowledged write of its own core waits for the acknowledgement (R216). -/
def State.blockedRead (s : State) (c : Nat) (r : SeRead) : Bool :=
  s.fab.writes.any (fun w => w.1 == c && decide (w.2.1 / 64 * 64 < r.addr + r.len) && decide (r.addr < (w.2.1 + w.2.2 + 63) / 64 * 64))

/-- Serves the waiting reads of a core that can go, oldest first; the cycles that a general read waited are open
(notes/assumptions/2.md). -/
def State.serveReads (c : Nat) : Nat → State → State
  | 0, s => s
  | k + 1, s =>
    match (s.core c).waiting.find? (fun r => s.entryFree c r.desc && !s.blockedRead c r) with
    | none => s
    | some r =>
      let x := s.core c
      let s1 := (s.setCore c { x with waiting := x.waiting.erase r }).issueRead c r
      let (w, s2) := if r.desc then (0, s1) else s1.freeNat
      State.serveReads c k (s2.onBoard (fun b => b.inc (Pg.core c) Cn.coreSeWaitCycles w))

/-- READ_REQUEST (R81). Whether the translation missed its cache is open (notes/assumptions/2.md), as is what it costs. -/
def execReadRequest (core addr len : Nat) (desc forNext : Bool) (s : State) : Host.Outcome State Fault Refusal :=
  done s (
    if !s.coreEnabled core || !readLegal addr len then s
    else
      let r : SeRead := ⟨0, addr, len, 0, desc, forNext⟩
      let (m, s1) := s.freeNat
      let s2 := s1.onBoard (fun b => b.inc Pg.mem Cn.memTmcMisses (m % 2))
      if s2.entryFree core desc && !s2.blockedRead core r && !(s2.core core).waiting.any (fun q => q.desc == desc) then s2.issueRead core r
      else s2.setCore core { s2.core core with waiting := (s2.core core).waiting ++ [r] })

/-- A response whose tag its port has not issued, or an acknowledgement of no write (R220). -/
def State.tagOrphan (s : State) : State :=
  s.onBoard (fun b => (b.inc Pg.fabSpine Cn.fabSpineTagOrphans 1).raise Pg.fabSpine F.fabSpineEventTagOrphan)

/-- A core read completes: its entry frees, and an address error ends the operator of the core's task with cause ADDRESS
(R133, R495). -/
def State.completeRead (s : State) (c tag status : Nat) : State :=
  let x := s.core c
  let s1 := (s.setCore c { x with reads := x.reads.filter (fun r => !(r.tag == tag)) }).seCount c
  let s2 := match status, x.task with
    | 2, some (n, q, _) => s1.errOp n q Cause.address 0
    | _, _ => s1
  State.serveReads c s2.cores.length (State.serveReads c x.waiting.length s2)

/-- READ_RESPONSE (R81, R213, R220). -/
def execReadResponse (tag latency status : Nat) (s : State) : Host.Outcome State Fault Refusal :=
  done s (
    if tag < 0xC000 then
      let c := tag / 512
      match (s.core c).reads.find? (fun r => r.tag == tag) with
      | none => s.tagOrphan
      | some r =>
        let s1 := { s with fab := { s.fab with latMax := max s.fab.latMax latency } }
        let past := decide (r.tier = 0) && decide (r.len ≤ 2048) && decide (latency > s.board.fld Pg.fabSpine F.fabSpineLatBoundCycles)
        let s2 := if past then
            s1.onBoard (fun b => (b.inc Pg.fabSpine Cn.fabSpineLatOver 1).raise Pg.fabSpine F.fabSpineEventLatBound)
          else s1
        s2.completeRead c tag status
    else if s.fab.tags.contains tag then { s with fab := { s.fab with tags := s.fab.tags.erase tag } }
    else s.tagOrphan)

/-! ### Writes (R84, R361, R73) -/

/-- The compute half of a core's double buffer meets [a, a + n). -/
def State.inComputeHalf (s : State) (c a n : Nat) : Bool :=
  let h := s.board.fld (Pg.core c) F.coreWbufStateComputeHalf
  let lo := c * Lay.window + (s.wbufLo c + h * s.wbufHalf c) * 2 ^ 20
  (Range.mk a (a + n)).meets ⟨lo, lo + s.wbufHalf c * 2 ^ 20⟩

/-- Does an address take a write: an enabled core's window, the reserve, or a mapped WRITABLE page (R172, R175)? -/
def State.writeOk (s : State) (a n : Nat) : Bool :=
  if a + n ≤ Lay.windowsEnd then s.coreEnabled (a / Lay.window)
  else if Lay.reserve ≤ a ∧ a + n ≤ Lay.reserveEnd then true
  else s.writablePages a n

/-- A fill write that addresses the compute half is discarded and counted (R73). -/
def State.refuseFill (s : State) (c : Nat) : State :=
  s.onBoard (fun b => (b.inc (Pg.core c) Cn.coreWbufRefusedCount 1).raise (Pg.core c) F.coreEventWbufConflict)

/-- WRITE_BURST (R84): whole or not at all; a reserved port discards and counts it (R204); a carding unit's write into a compute
half is refused (R73). -/
def execWriteBurst (src dst addr : Nat) (data : Bytes) (whole : Bool) (s : State) : Host.Outcome State Fault Refusal :=
  done s (
    if !portOk dst then s.onBoard (fun b => b.inc Pg.fabSpine Cn.fabSpineBadDest 1)
    else if !whole || data.length > 256 || !s.writeOk addr data.length then s
    else
      let c := addr / Lay.window
      let carding := decide (0x400 ≤ src) && decide (src < 0x418)
      if carding && decide (addr < Lay.windowsEnd) && s.inComputeHalf c addr data.length then s.refuseFill c
      else
        let s1 := s.wrBytes addr data
        { s1 with fab := { s1.fab with writes := s1.fab.writes ++ [(src, addr, data.length)] } })

/-- WRITE_ACK (R84, R220): the oldest unacknowledged write of the source port counts as done. -/
def execWriteAck (src : Nat) (s : State) : Host.Outcome State Fault Refusal :=
  done s (
    match s.fab.writes.find? (fun w => w.1 == src) with
    | none => s.tagOrphan
    | some w =>
      let s1 := { s with fab := { s.fab with writes := s.fab.writes.erase w } }
      if src < 96 then State.serveReads src (s1.core src).waiting.length s1 else s1)

/-! ### Links, the seam and hot links (R212, R222, R223) -/

/-- LINK_REPLAY (R223): three failed replays in a row are a class C fault, and the link holds its traffic. -/
def execLinkReplay (sw port : Nat) (ok : Bool) (s : State) : Host.Outcome State Fault Refusal :=
  done s (
    let k := sw * 32 + port
    if s.fab.linkHeld.contains k then s
    else
      let n := if ok then 0 else Tbl.get (fun _ => 0) s.fab.linkFails k + 1
      let s1 := ({ s with fab := { s.fab with linkFails := Tbl.set (fun _ => 0) s.fab.linkFails k n } }).onBoard (fun b =>
        b.inc Pg.fabSpine Cn.fabSpineLinkRetries 1)
      if n ≥ 3 then
        ({ s1 with fab := { s1.fab with linkHeld := s1.fab.linkHeld ++ [k] } }).classC Pg.fabSpine F.fabSpineEventLinkFault
      else s1)

/-- SEAM_REPLAY (R222): sixteen replays in a tick on one group enter the wire in the field-defect log. -/
def execSeamReplay (tile dir group wire : Nat) (s : State) : Host.Outcome State Fault Refusal :=
  done s (
    let k := (tile * 2 + dir) * 4096 + group
    let n := Tbl.get (fun _ => 0) s.fab.seamReplays k + 1
    let s1 := ({ s with fab := { s.fab with seamReplays := Tbl.set (fun _ => 0) s.fab.seamReplays k n } }).onBoard (fun b =>
      ((b.inc (Pg.fabTile tile) Cn.fabTileSeamRetries 1).raise (Pg.fabTile tile) F.fabTileEventSeamRetry).trace tile 6 9 0 (toLE 4 group))
    if n = 16 then
      (s1.appendDefect ⟨5, 4, tile, dir * 2 ^ 31 + group * 2 ^ 16 + wire⟩).onBoard (fun b => b.raise (Pg.fabTile tile) F.fabTileEventSeamWireBad)
    else s1)

/-- Partitions that wait at a hot slice or link count slice_hot if they are held at the next boundary (R193, R212). -/
def State.hotWait (s : State) (parts : List Nat) : State :=
  { s with fab := { s.fab with hotParts := (s.fab.hotParts ++ parts.filter (fun p => !s.fab.hotParts.contains p)) } }

/-- LINK_HOT (R212). -/
def execLinkHot (sw port cycles : Nat) (waiting : List Nat) (s : State) : Host.Outcome State Fault Refusal :=
  done s (
    if cycles < s.board.fld Pg.fabSpine F.fabSpineHotCfgCycles then s
    else
      (s.hotWait waiting).onBoard (fun b =>
        ((b.inc Pg.fabSpine Cn.fabSpineLinkHotTicks 1).setFlds Pg.fabSpine [(F.fabSpineHotLinkSwitch, sw), (F.fabSpineHotLinkPort, port)]).raise
          Pg.fabSpine F.fabSpineEventLinkHot))

/-- SLICE_HOT (R193). -/
def execSliceHot (slice cycles : Nat) (waiting : List Nat) (s : State) : Host.Outcome State Fault Refusal :=
  done s (
    let t := slice / 24
    if cycles < s.board.fld (Pg.slc t) F.slcHotCfgCycles then s
    else
      (s.hotWait waiting).onBoard (fun b =>
        ((b.inc (Pg.slc t) Cn.slcHotTicks 1).setFld (Pg.slc t) F.slcHotLastSlice (slice % 24)).raise (Pg.slc t) F.slcEventHot))

end Sys2Proof.Machine
end

