-- ==== Sys2Proof/Machine/Feed.lean ====
section
/-! DEFINITION. The layer feed: stream plans, batts, retries and the layer barrier (08_batts: R228 to R255; 11: R328, R338). -/
namespace Sys2Proof.Machine

/-! ### Plans (R233, R234) -/

/-- A plan entry. -/
structure Entry where
  id : Nat
  layer : Nat
  shard : Nat
  target : Nat
  tile : Nat
  rank : Nat
  dest : Nat
  rows : Nat
  cols : Nat
  pGroup : Nat
  pIdx : Nat
  mGroup : Nat
  mIdx : Nat
  scaleDest : Nat
  deriving DecidableEq, Repr

/-- The fields of an entry's 32 bytes. -/
def Entry.ofNat (v : Nat) : Entry :=
  { id := bitsOf v 31 0, layer := bitsOf v 47 32, shard := bitsOf v 63 48, target := bitsOf v 65 64, tile := bitsOf v 70 66,
    rank := bitsOf v 78 72, dest := bitsOf v 127 96, rows := bitsOf v 151 128, cols := bitsOf v 183 160,
    pGroup := bitsOf v 195 192, pIdx := bitsOf v 207 196, mGroup := bitsOf v 211 208, mIdx := bitsOf v 223 212,
    scaleDest := bitsOf v 255 224 }

/-- A plan's header as its arming reads it; DEFAULTS stand in for zero fields (R233). -/
def State.readPlan (s : State) (base : Nat) : Plan :=
  let f := fun (i n : Nat) => natAt s.rdByte (base + i) n
  let dflt := fun (v : Nat) (d : Fld) => if v = 0 then s.board.fld Pg.crdGlobal d else v
  { base := base, level := f 4 1, ctx := f 5 1, entries := f 8 4, layers := f 12 2, chains := f 14 1,
    deadline := dflt (f 16 1) F.crdGlobalDefaultsDeadline, missTicks := dflt (f 17 1) F.crdGlobalDefaultsMissTicks,
    retryMax := dflt (f 18 1) F.crdGlobalDefaultsRetryMax, entryOff := f 20 4, chainOff := f 24 4, layerOff := f 28 4 }

/-- Entry k, word x of the layer table, and chain c as its ranks. -/
def State.entryOf (s : State) (pl : Plan) (k : Nat) : Entry := Entry.ofNat (natAt s.rdByte (pl.base + 64 * pl.entryOff + 32 * k) 32)
def State.layerWord (s : State) (pl : Plan) (x : Nat) : Nat := natAt s.rdByte (pl.base + 64 * pl.layerOff + 4 * x) 4
def State.chainLen (s : State) (pl : Plan) (c : Nat) : Nat := natAt s.rdByte (pl.base + 64 * pl.chainOff + 64 * c) 1
def State.chain (s : State) (pl : Plan) (c : Nat) : List Nat :=
  (List.range (s.chainLen pl c)).map (fun i => natAt s.rdByte (pl.base + 64 * pl.chainOff + 64 * c + 32 + i) 1)

/-- The entries of layer x. -/
def State.layerEntries (s : State) (pl : Plan) (x : Nat) : List Nat :=
  let a := s.layerWord pl x
  (List.range (s.layerWord pl (x + 1) - a)).map (· + a)

/-- One past the last byte of a plan. -/
def Plan.stop (pl : Plan) : Nat :=
  pl.base + max (max 64 (64 * pl.entryOff + 32 * pl.entries)) (max (64 * pl.chainOff + 64 * pl.chains) (64 * pl.layerOff + 4 * (pl.layers + 1)))

/-- The plan is one sealed object in the context's slice (R235). -/
def State.planSealed (s : State) (pl : Plan) : Bool :=
  let ps := pagesOf pl.base (pl.stop - pl.base)
  let obj := (s.tier.entry (pageOf pl.base)).object
  ps.all (fun p => s.inPaged pl.ctx p && (s.tier.entry p).valid && (s.tier.entry p).sealed && decide ((s.tier.entry p).object = obj))

/-- The header and ordering rules of R233 and R234, and R250. -/
def State.planForm (s : State) (pl : Plan) : Bool :=
  decide (natAt s.rdByte pl.base 4 = 0x504C414E) && decide (1 ≤ pl.level) && decide (pl.level ≤ 3) &&
    decide (pl.level ≤ s.cf pl.ctx F.opqCtxCfgLevelPin) && decide (1 ≤ pl.entries) && decide (pl.entries ≤ 1048576) &&
    decide (1 ≤ pl.layers) && decide (pl.chains ≤ 64) && decide (1 ≤ pl.entryOff) && decide (1 ≤ pl.layerOff) &&
    (pl.chains == 0 || decide (1 ≤ pl.chainOff)) && decide (s.layerWord pl 0 = 0) && decide (s.layerWord pl pl.layers = pl.entries) &&
    (List.range pl.layers).all (fun x => decide (s.layerWord pl x ≤ s.layerWord pl (x + 1)) &&
      (s.layerEntries pl x).all (fun k => decide ((s.entryOf pl k).layer = x) && decide ((s.entryOf pl k).tile ≤ 23)))

/-- No rank and no chain lies beyond the partition (R235). -/
def State.planFits (s : State) (p : Nat) (pl : Plan) : Bool :=
  let n := (s.partCores p).length
  (List.range pl.chains).all (fun c => decide (2 ≤ s.chainLen pl c) && decide (s.chainLen pl c ≤ 32) && (s.chain pl c).all (fun r => decide (r < n))) &&
    (List.range pl.entries).all (fun k =>
      let e := s.entryOf pl k
      if e.target = 0 then decide (e.rank < n) else if e.target = 1 then decide (e.rank < pl.chains) else true)

/-- The module accepts a plan for partition p (R235). -/
def State.planOk (s : State) (p : Nat) (pl : Plan) : Bool :=
  s.planSealed pl && decide (s.partOf pl.ctx = p) && decide (s.cstate pl.ctx ≠ Cs.free) && decide (s.cf pl.ctx F.opqCtxCfgStreamer = 1) &&
    s.planForm pl && s.planFits p pl

/-! ### The feed of a partition -/

/-- The plan whose layer fills (R246). -/
def Feed.fill (f : Feed) : Option Plan := if f.fillNext then f.next else f.cur

/-- Keeps CRD#24.STATUS.ARMED and PLANp_STATE. -/
def State.syncFeed (s : State) (p : Nat) : State :=
  let f := s.feed p
  s.onBoard (fun b =>
    let m := b.fld Pg.crdGlobal F.crdGlobalStatusArmed
    b.setFlds Pg.crdGlobal [(F.crdGlobalStatusArmed, if f.cur.isSome then setBit m p else clearBit m p),
      (F.crdGlobalPlanStateFillLayer p, f.fillLayer), (F.crdGlobalPlanStateCurValid p, b2n f.cur.isSome),
      (F.crdGlobalPlanStateNextValid p, b2n f.next.isSome)])

/-- A batt of the fill layer by its entry. -/
def Feed.batt (f : Feed) (k : Nat) : Option BattSt := f.batts.find? (fun b => b.idx == k)

/-- Changes one batt. -/
def State.updBatt (s : State) (p k : Nat) (g : BattSt → BattSt) : State :=
  s.setFeed p { s.feed p with batts := (s.feed p).batts.map (fun b => if b.idx == k then g b else b) }

/-- A batt that has not been seen. -/
def BattSt.fresh (k : Nat) : BattSt :=
  { idx := k, phase := .absent, hdr := [], cause := 0, requests := 0, pending := false, late := 0, sinceFail := none, dead := false }

/-- A batt that a carding unit holds. -/
def BattSt.inCard (b : BattSt) : Bool := b.phase == .carding || b.phase == .carded

/-- Keeps CRD#t.STATUS. -/
def State.syncTile (s : State) (t : Nat) : State :=
  let n := ((List.range 16).map (fun p =>
    match (s.feed p).fill with
    | some pl => ((s.feed p).batts.filter (fun b => b.inCard && decide ((s.entryOf pl b.idx).tile = t))).length
    | none => 0)).sum
  s.onBoard (fun b => b.setFlds (Pg.crdTile t) [(F.crdTileStatusBusy, b2n (decide (n ≠ 0))), (F.crdTileStatusInProgress, min n 255)])

/-- The control body of R236. -/
def battBody (kind ctx attempt reason step layer shard id rack : Nat) : Bytes :=
  bodyOf 32 [(0, 1, kind), (1, 1, ctx), (2, 1, attempt), (3, 1, reason), (4, 4, step), (8, 2, layer), (10, 2, shard), (12, 4, id), (16, 2, rack)]

/-- The primary servers of a layer, each once (R237). -/
def State.primaries (s : State) (pl : Plan) (x : Nat) : List (Nat × Nat) :=
  ((s.layerEntries pl x).map (fun k => ((s.entryOf pl k).pGroup, (s.entryOf pl k).pIdx))).eraseDups

/-- Starts a fill layer: its batts are absent, and one PULL goes to every primary server (R237, R246). -/
def State.startFill (s : State) (p step layer : Nat) (next : Bool) : State :=
  let f := { s.feed p with fillStep := step % 2 ^ 32, fillLayer := layer, fillNext := next, arrived := [], mark := none, done := false, sampled := false }
  match f.fill with
  | none => (s.setFeed p { f with batts := [] }).syncFeed p
  | some pl =>
    let s1 := (s.setFeed p { f with batts := (s.layerEntries pl layer).map BattSt.fresh }).syncFeed p
    let ps := s1.primaries pl layer
    (ps.foldl (fun s g => s.sendServer g.1 1 (battBody 1 pl.ctx 0 0 (step % 2 ^ 32) layer 0 0 s.rack)) s1).onBoard (fun b =>
      b.inc Pg.crdGlobal Cn.crdGlobalPullsSent ps.length)

/-- A plan becomes current: layer 0 of the context's step fills, both halves empty (R235, R237). -/
def State.startPlan (s : State) (p : Nat) (pl : Plan) : State :=
  (s.setFeed p { s.feed p with cur := some pl, armed := none, comp := none, invalid := false, stepDone := false }).startFill p (s.stepOf pl.ctx) 0 false

/-- The layer after the one that has just swapped in (R246): layer, step advance, of the next plan. -/
def Feed.after (f : Feed) : Nat × Nat × Bool :=
  match f.cur with
  | some pl => if f.fillLayer + 1 < pl.layers then (f.fillLayer + 1, 0, false) else (0, 1, f.next.isSome)
  | none => (0, 0, false)

/-! ### Arming (R235) -/

/-- PLANp_BASE. -/
def State.planBase (s : State) (p : Nat) : Nat :=
  64 * s.board.fld Pg.crdGlobal (F.crdGlobalPlanBaseLoAddr p) + 2 ^ 32 * s.board.fld Pg.crdGlobal (F.crdGlobalPlanBaseHiAddr p)

/-- A refused plan arms nothing. -/
def State.planRefused (s : State) : State := s.onBoard (fun b => b.raise Pg.crdGlobal F.crdGlobalEventPlanRefused)

/-- ARM: the plan becomes current after the context's next STEP, or at the next boundary without a current plan. -/
def State.armPlan (s : State) (p : Nat) : State :=
  let pl := s.readPlan (s.planBase p)
  if s.planOk p pl then s.setFeed p { s.feed p with armed := some pl, stepDone := false } else s.planRefused

/-- ARM_NEXT. -/
def State.armNextPlan (s : State) (p : Nat) : State :=
  let pl := s.readPlan (s.planBase p)
  if s.planOk p pl then (s.setFeed p { s.feed p with next := some pl }).syncFeed p else s.planRefused

/-- A host's write to PLANp_CMD. -/
def planCmd (l : Link) (p : Nat) (act : State → State) (s : State) : State :=
  hostWrite l Pg.crdGlobal (F.crdGlobalPlanCmdArm p).off (fun s => if p < 16 then act s else s) s

/-- ARM (R235). -/
def execArm (link : Link) (p : Nat) (s : State) : Host.Outcome State Fault Refusal := done s (planCmd link p (fun s => s.armPlan p) s)

/-- ARM_NEXT (R235). -/
def execArmNext (link : Link) (p : Nat) (s : State) : Host.Outcome State Fault Refusal := done s (planCmd link p (fun s => s.armNextPlan p) s)

/-- DISARM (R235): it waits for the next step boundary. -/
def State.disarmPlan (s : State) (p : Nat) : State := s.setFeed p { s.feed p with disarm := true, stepDone := false }

/-- DISARM (R235). -/
def execDisarm (link : Link) (p : Nat) (s : State) : Host.Outcome State Fault Refusal := done s (planCmd link p (fun s => s.disarmPlan p) s)

/-! ### Requests (R249) -/

/-- Sends the next REQ of a batt: ATTEMPT 1 to the mirror, then primary and mirror in turn. -/
def State.sendReq (s : State) (p k : Nat) : State :=
  match (s.feed p).fill, (s.feed p).batt k with
  | some pl, some b =>
    let e := s.entryOf pl k
    let n := b.requests + 1
    let s1 := s.updBatt p k (fun b => { b with requests := n, pending := true })
    (s1.sendServer (if n % 2 = 1 then e.mGroup else e.pGroup) 1
      (battBody 2 pl.ctx n 0 (s.feed p).fillStep e.layer e.shard e.id s.rack)).onBoard (fun b => b.inc Pg.crdGlobal Cn.crdGlobalReqsSent 1)
  | _, _ => s

/-- A batt has failed or is missing: its first failure starts the deadline and sends ATTEMPT 1; the failure of a request sends
the next one at once, up to RETRY_MAX requests and not after the deadline. `cause` is 2 missing, 3 corrupt; `attempt` the copy's or
the NAK's ATTEMPT. -/
def State.battFails (s : State) (p k cause attempt : Nat) : State :=
  match (s.feed p).fill, (s.feed p).batt k with
  | some pl, some b =>
    let s1 := s.updBatt p k (fun b => { b with cause := cause, sinceFail := some (b.sinceFail.getD 0) })
    if b.sinceFail.isNone then s1.sendReq p k
    else if b.pending && decide (attempt = b.requests) then
      if b.requests < pl.retryMax && !b.dead then s1.sendReq p k else s1.updBatt p k (fun b => { b with pending := false })
    else s1
  | _, _ => s

/-- One further REQ for a batt past its deadline (R249 step 5). -/
def State.retryBatt (s : State) (p k : Nat) : State :=
  match (s.feed p).batt k with
  | some b => if b.dead && b.phase == .absent && b.requests < 255 then s.sendReq p k else s
  | none => s

/-- RETRY (R249, R253). -/
def State.retryPlan (s : State) (p : Nat) : State := (s.feed p).batts.foldl (fun s b => s.retryBatt p b.idx) s

/-- RETRY (R249). -/
def execRetry (link : Link) (p : Nat) (s : State) : Host.Outcome State Fault Refusal := done s (planCmd link p (fun s => s.retryPlan p) s)

/-- CROWN_RETRY_REQUEST (R249): the crown asks for a further REQ for the batt that its body names as a notice does. -/
def execCrownRetryRequest (body : Bytes) (s : State) : Host.Outcome State Fault Refusal :=
  done s (
    let p := s.partOf (leAt body 2 1)
    match (s.feed p).fill with
    | some pl =>
      match (s.feed p).batts.find? (fun b => (s.entryOf pl b.idx).id == leAt body 12 4 && (s.entryOf pl b.idx).shard == leAt body 10 2) with
      | some b => if s.inService then s.retryBatt p b.idx else s
      | none => s
    | none => s)

/-! ### Destinations (R243) -/

/-- The start of core c's fill half. -/
def State.fillHalf (s : State) (c : Nat) : Nat :=
  c * Lay.window + (s.wbufLo c + (1 - s.board.fld (Pg.core c) F.coreWbufStateComputeHalf) * s.wbufHalf c) * 2 ^ 20

/-- The core that a batt is carded into: its rank, or the head of its chain. -/
def State.headCore (s : State) (p : Nat) (pl : Plan) (e : Entry) : Option Nat :=
  let r := if e.target = 0 then some e.rank else if e.target = 1 then (s.chain pl e.rank).head? else none
  r.bind (fun r => (s.partCores p)[r]?)

/-- Where an entry's output starts. -/
def State.battBase (s : State) (p : Nat) (pl : Plan) (e : Entry) : Option Nat :=
  if e.target ≤ 1 then (s.headCore p pl e).map (fun c => s.fillHalf c + 64 * e.dest)
  else if e.target = 2 then some (e.dest * Lay.page) else none

/-- The ranges that an entry's output covers: the tensor, and its scale and metadata arrays at SCALE_DEST (metadata after the
scales at the next 64 B, DEDUCED, notes/assumptions/24.md). -/
def outRanges (h : BattHdr) (e : Entry) (base : Nat) : List (Nat × Nat) :=
  let t := cardSlot h e.rows e.cols
  [(base, t.extent), (base + 64 * e.scaleDest, t.scaleBytes), (base + 64 * e.scaleDest + roundUp t.scaleBytes 64, t.metaBytes)].filter
    (fun r => decide (r.2 ≠ 0))

/-- Check 7's part on the target: in the core's window for a fill half, in WRITABLE tier 0 pages of CTX otherwise. A stream plan
loads no object, so a tier 1 target is not writable (R18; DEDUCED, notes/assumptions/24.md). -/
def State.targetOk (s : State) (p : Nat) (pl : Plan) (h : BattHdr) (e : Entry) : Bool :=
  match s.battBase p pl e with
  | none => false
  | some a =>
    (outRanges h e a).all (fun r =>
      if e.target = 2 then (pagesOf r.1 r.2).all (s.inPaged pl.ctx) && s.writablePages r.1 r.2 &&
        (pagesOf r.1 r.2).all (fun q => decide ((s.tier.entry q).ctx = pl.ctx))
      else decide (r.1 / Lay.window = (r.1 + r.2 - 1) / Lay.window))

/-! ### Ingest (R238, R239) -/

/-- Counts an outcome on CRD#24. -/
def State.crdCount (s : State) (off : Nat) : State := s.onBoard (fun b => b.inc Pg.crdGlobal off 1)

/-- The partition of a batt's context and the entry it names, when check 3 passes. -/
def State.battEntry (s : State) (h : BattHdr) : Option (Nat × Plan × Entry) :=
  let p := s.partOf h.ctx
  match (s.feed p).fill with
  | some pl =>
    let e := s.entryOf pl h.index
    if pl.ctx = h.ctx ∧ h.index < pl.entries ∧ e.id = h.id ∧ e.layer = h.layer ∧ e.shard = h.shard then some (p, pl, e) else none
  | none => none

/-- Checks 1 to 7 on a header; a batt that passes is in carding. -/
def State.battIn (s : State) (bs : Bytes) : State :=
  let h := BattHdr.ofBytes bs
  if !s.inService && s.tier.loads.isEmpty then s.crdCount Cn.crdGlobalDiscardState
  else if bs.length < 64 || !headerOk bs then s.crdCount Cn.crdGlobalHdrBad
  else
    match s.battEntry h with
    | none => s.crdCount Cn.crdGlobalHdrMismatch
    | some (p, pl, e) =>
      match (s.feed p).batt h.index with
      | none => s.crdCount Cn.crdGlobalStale
      | some b =>
        if h.step ≠ (s.feed p).fillStep ∨ h.layer ≠ (s.feed p).fillLayer then s.crdCount Cn.crdGlobalStale
        else if b.phase ≠ .absent then s.crdCount Cn.crdGlobalDuplicates
        else if h.level = 0 ∨ 3 < h.level ∨ pl.level < h.level ∨ 1 < h.codec ∨ (h.codec = 1 ∧ h.level = 1) then
          ((s.crdCount Cn.crdGlobalLevelErrors).onBoard (fun b => b.raise Pg.crdGlobal F.crdGlobalEventLevel)).battFails p h.index 3 h.attempt
        else if !convertOk h e.rows e.cols || !s.targetOk p pl h e then
          (s.onBoard (fun b => (b.inc (Pg.crdTile e.tile) Cn.crdTileFormatErrors 1).raise (Pg.crdTile e.tile) F.crdTileEventFormat)).battFails
            p h.index 3 h.attempt
        else (s.updBatt p h.index (fun b => { b with phase := .carding, hdr := slice bs 0 64 })).syncTile e.tile

/-- BATT (R238): a batt header reaches its carding unit. -/
def execBatt (hdr : Bytes) (s : State) : Host.Outcome State Fault Refusal := done s (s.battIn hdr)

/-- A copy in carding ends without a commit. -/
def State.dropCopy (s : State) (p k t : Nat) : State := (s.updBatt p k (fun b => { b with phase := .absent, hdr := [] })).syncTile t

/-- The last payload byte of a batt in carding (checks 8 and 9), and its output (R240, R243). -/
def State.battEnd (s : State) (p k : Nat) (payload : Bytes) : State :=
  match (s.feed p).fill, (s.feed p).batt k with
  | some pl, some b =>
    let e := s.entryOf pl k
    let h := BattHdr.ofBytes b.hdr
    let t := Pg.crdTile e.tile
    if b.phase ≠ .carding then s
    else
      match cardPayload h e.rows e.cols payload with
      | .error false =>
        ((s.dropCopy p k e.tile).onBoard (fun b => (b.inc t Cn.crdTileCrcFails 1).raise t F.crdTileEventCrcFail)).battFails p k 3 h.attempt
      | .error true =>
        ((s.dropCopy p k e.tile).onBoard (fun b => (b.inc t Cn.crdTileMalformed 1).raise t F.crdTileEventMalformed)).battFails p k 3 h.attempt
      | .ok c =>
        match s.battBase p pl e with
        | none => s.dropCopy p k e.tile
        | some a =>
          let core := (s.headCore p pl e).getD 0
          let ws := c.main.map (fun w => (a + w.1, w.2)) ++
            [(a + 64 * e.scaleDest, c.scales), (a + 64 * e.scaleDest + roundUp c.scales.length 64, c.words)]
          let s1 := s.onBoard (fun b => (b.inc t Cn.crdTileSatCount c.sats).inc t Cn.crdTileNonfiniteCount c.nonfin)
          if e.target ≤ 1 && ws.any (fun w => decide (w.2.length ≠ 0) && s.inComputeHalf core w.1 w.2.length) then
            (s1.refuseFill core).dropCopy p k e.tile
          else (s1.wrAll ws).updBatt p k (fun b => { b with phase := .carded })
  | _, _ => s

/-- BATT_PAYLOAD_END (R238). -/
def execBattPayloadEnd (p idx : Nat) (payload : Bytes) (s : State) : Host.Outcome State Fault Refusal := done s (s.battEnd p idx payload)

/-- BATT_COMMIT (R240): checks passed and every burst acknowledged; a chain's notice then follows (R244). -/
def execBattCommit (p idx : Nat) (s : State) : Host.Outcome State Fault Refusal :=
  done s (
    match (s.feed p).fill, (s.feed p).batt idx with
    | some pl, some b =>
      let e := s.entryOf pl idx
      let h := BattHdr.ofBytes b.hdr
      let t := Pg.crdTile e.tile
      if b.phase ≠ .carded then s
      else
        ((s.updBatt p idx (fun b => { b with phase := if e.target = 1 then .forwarding 0 else .committed, pending := false })).syncTile e.tile).onBoard
          (fun b => (((b.inc t Cn.crdTileBattsCommitted 1).inc t Cn.crdTilePayloadBytes h.payload).inc t Cn.crdTileOutBytes h.out).trace e.tile 4 6 pl.ctx
            (toLE 8 h.id ++ toLE 4 h.layer ++ toLE 4 h.attempt))
    | _, _ => s)

/-! ### Chains (R244) -/

/-- The core at chain position i of an entry. -/
def State.chainCore (s : State) (p : Nat) (pl : Plan) (e : Entry) (i : Nat) : Option Nat :=
  ((s.chain pl e.rank)[i]?).bind (fun r => (s.partCores p)[r]?)

/-- Copies [lo, lo + n) of a batt's place in one core's fill half to the same place in another's. -/
def State.forwardBytes (s : State) (c d off n : Nat) : State := s.wrBytes (s.fillHalf d + off) (s.rdBytes (s.fillHalf c + off) n)

/-- CHAIN_FORWARD (R244): the core at a position forwards one 1 KiB unit of the batt's output. -/
def execChainForward (p idx pos unit : Nat) (s : State) : Host.Outcome State Fault Refusal :=
  done s (
    match (s.feed p).fill, (s.feed p).batt idx with
    | some pl, some b =>
      let e := s.entryOf pl idx
      let h := BattHdr.ofBytes b.hdr
      match s.chainCore p pl e pos, s.chainCore p pl e (pos + 1) with
      | some c, some d =>
        let n := min 1024 (h.out - 1024 * unit)
        if e.target ≠ 1 ∨ b.phase = .absent ∨ b.phase = .committed ∨ n = 0 then s
        else if s.inComputeHalf d (s.fillHalf d + 64 * e.dest + 1024 * unit) n then s.refuseFill d
        else
          (s.forwardBytes c d (64 * e.dest + 1024 * unit) n).onBoard (fun b => b.inc (Pg.crdTile (c / 4)) Cn.crdTileChainBytes n)
      | _, _ => s
    | _, _ => s)

/-- CHAIN_COMMIT_NOTICE (R244): the notice follows the last unit to the next position, whose core counts the batt as committed. -/
def execChainCommitNotice (p idx : Nat) (s : State) : Host.Outcome State Fault Refusal :=
  done s (
    match (s.feed p).fill, (s.feed p).batt idx with
    | some pl, some b =>
      let e := s.entryOf pl idx
      let h := BattHdr.ofBytes b.hdr
      match b.phase with
      | .forwarding i =>
        match s.chainCore p pl e i, s.chainCore p pl e (i + 1) with
        | some c, some d =>
          let s1 := (outRanges h e (64 * e.dest)).foldl (fun s r => s.forwardBytes c d r.1 r.2) s
          s1.updBatt p idx (fun b => { b with phase := if i + 2 ≥ (s.chain pl e.rank).length then .committed else .forwarding (i + 1) })
        | _, _ => s.updBatt p idx (fun b => { b with phase := .committed })
      | _ => s
    | _, _ => s)

/-! ### Missing and late batts (R249) -/

/-- NAK (R249): counted; a NAK to the PULL makes the batt missing, a NAK to the last request sends the next. -/
def State.nakIn (s : State) (body : Bytes) : State :=
  let s1 := (s.crdCount Cn.crdGlobalNaks).onBoard (fun b => b.raise Pg.crdGlobal F.crdGlobalEventNak)
  let p := s.partOf (leAt body 1 1)
  let att := leAt body 2 1
  match (s.feed p).fill with
  | none => s1
  | some pl =>
    match (s.feed p).batts.find? (fun b => (s.entryOf pl b.idx).id == leAt body 12 4 && (s.entryOf pl b.idx).shard == leAt body 10 2) with
    | none => s1
    | some b =>
      if pl.ctx ≠ leAt body 1 1 ∨ leAt body 4 4 ≠ (s.feed p).fillStep ∨ leAt body 8 2 ≠ (s.feed p).fillLayer ∨ b.phase ≠ .absent then s1
      else if att = 0 ∧ b.sinceFail.isSome then s1
      else s1.battFails p b.idx (if b.cause = 0 then 2 else b.cause) att

/-- NAK (R249). -/
def execNak (body : Bytes) (s : State) : Host.Outcome State Fault Refusal := done s (s.nakIn body)

/-- BATT_MISSING (R249 step 1): after MISS_TICKS consecutive held boundaries that counted server_late. -/
def execBattMissing (p idx : Nat) (s : State) : Host.Outcome State Fault Refusal :=
  done s (
    match (s.feed p).fill, (s.feed p).batt idx with
    | some pl, some b => if b.phase = .absent ∧ b.sinceFail.isNone ∧ pl.missTicks ≤ b.late then s.battFails p idx 2 0 else s
    | _, _ => s)

/-- The crown's answer to a batt failure notice (R338): an abort with reason 2 when BATT_ABORT is 1. -/
def State.battNotice (s : State) (body : Bytes) : State :=
  let s1 := s.onBoard (fun b => b.inc Pg.role Cn.roleNotices 1)
  if s1.board.flag Pg.role F.roleCrownCfgBattAbort && s1.gridRuns then s1.decideAbort (leAt body 4 4) 2 else s1

/-- A batt failure notice to the crown. -/
def State.tellBatt (s : State) (body : Bytes) : State := if s.holdsTop then s.battNotice body else s.toCrown 1 0x20 body

/-- BATT_DEADLINE (R249 step 4). -/
def execBattDeadline (p idx : Nat) (s : State) : Host.Outcome State Fault Refusal :=
  done s (
    match (s.feed p).fill, (s.feed p).batt idx with
    | some pl, some b =>
      let e := s.entryOf pl idx
      let past := match b.phase with
        | .committed => false
        | .forwarding _ => false
        | _ => true
      if !past || b.dead || decide (b.sinceFail.getD 0 < pl.deadline) then s
      else
        let s1 := (s.updBatt p idx (fun b => { b with dead := true })).onBoard (fun bd =>
          ((bd.inc Pg.crdGlobal Cn.crdGlobalDeadlines 1).setFlds Pg.crdGlobal [(F.crdGlobalLastFailIdBattId, e.id), (F.crdGlobalLastFailLayer, e.layer),
            (F.crdGlobalLastFailPartition, p), (F.crdGlobalLastFailCause, b.cause)]).raise Pg.crdGlobal F.crdGlobalEventDeadline)
        let step := (s.feed p).fillStep
        s1.tellBatt (bodyOf 32 [(0, 2, s.rack), (2, 1, pl.ctx), (3, 1, s.attemptOf step), (4, 4, step), (8, 2, e.layer), (10, 2, e.shard),
          (12, 4, e.id), (16, 1, b.cause)])
    | _, _ => s)

/-! ### The layer barrier (R245, R328) -/

/-- Core c's scoreboard is complete: every batt of the fill layer that targets it has committed there. -/
def State.scoreboard (s : State) (p c : Nat) : Bool :=
  match (s.feed p).fill with
  | none => true
  | some pl =>
    (s.feed p).batts.all (fun b =>
      let e := s.entryOf pl b.idx
      let cores := s.partCores p
      if e.target = 0 then !(cores[e.rank]? == some c) || b.phase == .committed
      else if e.target = 1 then
        let at_ := (s.chain pl e.rank).findIdx? (fun r => cores[r]? == some c)
        match at_, b.phase with
        | none, _ => true
        | some _, .committed => true
        | some i, .forwarding j => decide (i ≤ j)
        | some _, _ => false
      else true)

/-- The layer mark that the streaming context of partition p waits at, with every earlier operator complete. -/
def State.atMark (s : State) (p : Nat) : Bool :=
  match (s.feed p).cur, (s.feed p).mark with
  | some pl, some q => ((s.live pl.ctx).head?.map (fun o => o.qindex == q && o.mark)).getD false
  | _, _ => false

/-- BARRIER_ARRIVE (R245): a core whose scoreboard is complete, when the context has reached its layer mark. -/
def execBarrierArrive (core : Nat) (s : State) : Host.Outcome State Fault Refusal :=
  done s (
    match s.partOfCore core with
    | none => s
    | some p =>
      let f := s.feed p
      if !s.atMark p || f.invalid || f.done || f.arrived.contains core || !s.scoreboard p core then s
      else (s.setFeed p { f with arrived := f.arrived ++ [core] }).onBoard (fun b =>
        b.trace (core / 4) (core % 4) 4 ((f.cur.map Plan.ctx).getD 0) (toLE 1 p ++ toLE 4 f.fillLayer)))

/-- BARRIER_COMPLETE (R245, R328): every core of the partition has arrived; FILL_SEALED is set, and the halves swap at the first
boundary whose close point samples this. -/
def execBarrierComplete (p : Nat) (s : State) : Host.Outcome State Fault Refusal :=
  done s (
    let f := s.feed p
    if f.done || (s.partCores p).isEmpty || !(s.partCores p).all f.arrived.contains then s
    else
      ((s.setFeed p { f with done := true }).onBoard (fun b =>
        let b1 := (s.partCores p).foldl (fun b c => b.setFld (Pg.core c) F.coreWbufStateFillSealed 1) (b.inc Pg.tk Cn.tkBarriers 1)
        ((s.partCores p).map (· / 4)).eraseDups.foldl (fun b t =>
          b.trace t 5 5 ((f.cur.map Plan.ctx).getD 0) (toLE 1 p ++ toLE 8 (b.gtc - 330))) b1)).barOwnDone)

/-! ### What a boundary does to the feeds (R72, R235, R245 to R249) -/

/-- The halves swap: the compute half toggles on every core, the layer mark completes, the next layer fills (R72, R245, R246). -/
def State.swapHalves (s : State) (p : Nat) : State :=
  let f := s.feed p
  let s1 := s.onBoard (fun b => (s.partCores p).foldl (fun b c =>
    ((b.setFld (Pg.core c) F.coreWbufStateComputeHalf (1 - b.fld (Pg.core c) F.coreWbufStateComputeHalf)).setFld (Pg.core c)
      F.coreWbufStateFillSealed 0).inc (Pg.core c) Cn.coreWbufFlips 1) b)
  let s2 := match f.cur, f.mark with
    | some pl, some q => s1.completeOp pl.ctx q
    | _, _ => s1
  let f2 := if f.fillNext then { s2.feed p with cur := f.next, next := none, fillNext := false } else s2.feed p
  let s3 := s2.setFeed p { f2 with comp := some f.fillLayer }
  let nx := f2.after
  s3.startFill p (f.fillStep + nx.2.1) nx.1 nx.2.2

/-- The plan of a partition leaves: a mark that waits completes, since nothing fills. -/
def State.clearFeed (s : State) (p : Nat) : State :=
  let f := s.feed p
  let s1 := match f.cur, f.mark with
    | some pl, some q => s.completeOp pl.ctx q
    | _, _ => s
  (s1.setFeed p Feed.init).syncFeed p

/-- What an unheld boundary of partition p does: DISARM, a plan that becomes current, a swap. -/
def State.feedBoundary (s : State) (p : Nat) : State :=
  let f := s.feed p
  if f = Feed.init then s
  else if f.disarm ∧ (f.stepDone ∨ f.cur.isNone) then s.clearFeed p
  else
    match f.armed with
    | some pl =>
      if f.stepDone ∨ f.cur.isNone ∨ f.invalid then ((s.clearFeed p).setFeed p { Feed.init with next := f.next }).startPlan p pl
      else if f.done ∧ f.sampled then s.swapHalves p else s
    | none =>
      let s1 := s.setFeed p { f with stepDone := false }
      if f.done ∧ f.sampled then s1.swapHalves p else s1

/-- The close point samples a completed barrier (R324). -/
def State.feedSample (s : State) (p : Nat) : State :=
  let f := s.feed p
  if f.done ∧ !f.sampled then s.setFeed p { f with sampled := true } else s

/-- A tick boundary passes for batts that have failed (R249 step 4). -/
def State.feedAge (s : State) (p : Nat) : State :=
  if (s.feed p).batts.isEmpty then s
  else s.setFeed p { s.feed p with batts := (s.feed p).batts.map (fun b => { b with sinceFail := b.sinceFail.map (· + 1) }) }

/-- The partition's plan is invalid and no new one has been armed (R235). -/
def Feed.broken (f : Feed) : Bool := f.invalid && f.cur.isSome && f.armed.isNone

/-- The partition waits for its layer: the context is at its mark and the close point has not sampled the barrier; or its plan is
invalid (R235, R248). -/
def State.feedWaits (s : State) (p : Nat) : Bool :=
  let f := s.feed p
  f.broken || (s.atMark p && !(f.done && f.sampled))

/-- The cause that an uncommitted batt counts (R248), as a code of R192. -/
def BattSt.heldCause (b : BattSt) : Option Nat :=
  match b.phase with
  | .committed => none
  | .absent => some (if b.sinceFail.isSome then b.cause else 1)
  | _ => some 5

/-- The causes of a partition that waits for its layer, ascending, each once. -/
def State.feedCauses (s : State) (p : Nat) : List Nat :=
  let f := s.feed p
  if f.broken then [1]
  else
    let cs := f.batts.filterMap BattSt.heldCause
    if cs.isEmpty then [5] else [1, 2, 3, 5].filter cs.contains

/-- A held boundary of a waiting partition: batts that count server_late count it once more, the others start again; the tiles of
a backlog count it (R248, R249, R255). -/
def State.feedHold (s : State) (p : Nat) : State :=
  let f := s.feed p
  let s1 := s.setFeed p { f with batts := f.batts.map (fun b => { b with late := if b.heldCause = some 1 then b.late + 1 else 0 }) }
  match f.fill with
  | none => s1
  | some pl =>
    let ts := ((f.batts.filter (fun b => b.heldCause == some 5)).map (fun b => (s.entryOf pl b.idx).tile)).eraseDups
    s1.onBoard (fun b => ts.foldl (fun b t => (b.inc (Pg.crdTile t) Cn.crdTileBacklogTicks 1).raise (Pg.crdTile t) F.crdTileEventBacklog) b)

/-! ### Aborts and remaps (R235, R247) -/

/-- A class B abort reaches the streaming context: its batts in progress end and both scoreboards clear. -/
def State.feedAbort (s : State) (p : Nat) : State :=
  let f := s.feed p
  if f.cur.isNone then s
  else
    let s1 := s.setFeed p { f with batts := [], arrived := [], mark := none, done := false, sampled := false, comp := none }
    (List.range 24).foldl (fun s t => s.syncTile t) s1

/-- The replay starts: both halves are empty, and layer 0 of the replayed step fills. -/
def State.feedReplay (s : State) (p : Nat) : State :=
  match (s.feed p).cur with
  | some pl => if (s.feed p).invalid then s else s.startFill p (s.stepOf pl.ctx) 0 false
  | none => s

/-- A remap has changed partition p: a plan with a rank beyond it is invalid (R235). -/
def State.feedRemap (s : State) (p : Nat) : State :=
  match (s.feed p).cur with
  | some pl =>
    if s.planFits p pl then s
    else (s.setFeed p { s.feed p with invalid := true }).onBoard (fun b => b.raise Pg.crdGlobal F.crdGlobalEventPlanInvalid)
  | none => s

end Sys2Proof.Machine
end

