-- ==== Sys2Proof/Machine/Fulling.lean ====
section
/-! DEFINITION. The fulling engines: trees, invocations, segments, ends and the missing-contributor rule (09_fulling: R256 to
R280), and the FULL_REDUCE operator (R155). -/
namespace Sys2Proof.Machine

/-! ### Slots (R256, R257, R279) -/

/-- A tree that has done nothing. -/
def Tree.init : Tree :=
  { applied := [], ops := [], left := [], isOpen := false, seen := false, step := 0, attempt := 0, e := 0, elements := 0, level := 0,
    contribs := [], sums := [], wide := [], up := 0, down := 0, results := [], downEnd := none, released := 0, winAt := 0, winParent := 64,
    endSent := false, localSat := 0, localNf := 0, watch := none, downWatch := none, dead := false, crcs := [], audit := [] }
def State.tree (s : State) (n : Nat) : Tree := Tbl.get (fun _ => Tree.init) s.trees n
def State.setTree (s : State) (n : Nat) (t : Tree) : State := { s with trees := Tbl.set (fun _ => Tree.init) s.trees n t }

/-- The engine's page and the slot of tree n. -/
def treePage (n : Nat) : Nat := Pg.ful (n / 16)
def treeSlot (n : Nat) : Nat := n % 16

/-- Offsets of a slot's configuration words. -/
def treeCfgOffs (slot : Nat) : List Nat := [0x00, 0x04, 0x08, 0x10, 0x14, 0x18, 0x1C, 0x20, 0x24, 0x28, 0x2C].map (fun o => 0x100 + 64 * slot + o)

/-- A configuration word in effect. -/
def Tree.word (t : Tree) (slot i : Nat) : Nat :=
  match t.applied[i]? with
  | some w => w.toNat
  | none => (resetWord .ful ((treeCfgOffs slot).getD i 0)).toNat

/-- TREE_CFG in effect. -/
def State.tcfg (s : State) (n : Nat) : Nat := (s.tree n).word (treeSlot n) 0
def State.tOn (s : State) (n : Nat) : Bool := (s.tcfg n).testBit 0
/-- KIND 1, all-reduce. -/
def State.tAll (s : State) (n : Nat) : Bool := (s.tcfg n).testBit 1
def State.tRoot (s : State) (n : Nat) : Bool := (s.tcfg n).testBit 2
def State.tLocal (s : State) (n : Nat) : Bool := (s.tcfg n).testBit 3
def State.tKids (s : State) (n : Nat) : Nat := bitsOf (s.tcfg n) 7 4
def State.tDeadline (s : State) (n : Nat) : Nat := bitsOf (s.tcfg n) 15 8
def State.tSparse (s : State) (n : Nat) : Bool := (s.tcfg n).testBit 16
/-- TREE_PARENT's rack and engine group, and TREE_WINDOW. -/
def State.tParent (s : State) (n : Nat) : Nat × Nat :=
  let w := (s.tree n).word (treeSlot n) 1
  (bitsOf w 11 0, bitsOf w 19 16)
def State.tWindow (s : State) (n : Nat) : Nat := bitsOf ((s.tree n).word (treeSlot n) 2) 14 0
/-- Rack and engine group of child k. -/
def State.tChild (s : State) (n k : Nat) : Nat × Nat :=
  let w := (s.tree n).word (treeSlot n) (3 + k / 2)
  if k % 2 = 0 then (bitsOf w 11 0, bitsOf w 15 12) else (bitsOf w 27 16, bitsOf w 31 28)

/-- The contributors of the node: 0 its own module, k + 1 child k (R256). -/
def State.tIds (s : State) (n : Nat) : List Nat := (if s.tLocal n then [0] else []) ++ (List.range (s.tKids n)).map (· + 1)

/-- Segments of the open invocation (R258). -/
def Tree.nseg (t : Tree) : Nat := ceilDiv t.elements 256

/-- Elements of segment k. -/
def Tree.segLen (t : Tree) (k : Nat) : Nat := min 256 (t.elements - 256 * k)

/-- What contributor i has delivered. -/
def Tree.con (t : Tree) (i : Nat) : Contrib := t.contribs.getD i ⟨[], none⟩

/-- Changes contributor i. -/
def Tree.setCon (t : Tree) (i : Nat) (c : Contrib) : Tree :=
  { t with contribs := (List.range (max t.contribs.length (i + 1))).map (fun j => if j = i then c else t.con j) }

/-- Segment k is complete: every contributor has delivered it (R263). -/
def State.tComplete (s : State) (n k : Nat) : Bool := (s.tIds n).all (fun i => ((s.tree n).con i).segs.contains k)

/-- The lowest incomplete segment at or above k, if one lies within `fuel` segments. -/
def State.tLowest (s : State) (n : Nat) : Nat → Nat → Option Nat
  | _, 0 => none
  | k, fuel + 1 => if k ≥ (s.tree n).nseg then none else if s.tComplete n k then s.tLowest n (k + 1) fuel else some k

/-- Keeps TREE_STATE, TREE_STEP, TREE_LOWEST and FUL.STATUS.OPEN. -/
def State.syncTree (s : State) (n : Nat) : State :=
  let t := s.tree n
  let k := treeSlot n
  let low := (s.tLowest n t.released (s.tWindow n + 1)).getD t.nseg
  s.onBoard (fun b =>
    let m := b.fld (treePage n) F.fulStatusOpen
    b.setFlds (treePage n) [(F.fulStatusOpen, if t.isOpen then setBit m k else clearBit m k), (F.fulTreeStateOpen k, b2n t.isOpen),
      (F.fulTreeStateAttempt k, t.attempt), (F.fulTreeStepStep k, t.step), (F.fulTreeLowestSegment k, low)])

/-- Counts on the tree's FUL page. -/
def State.fulCount (s : State) (n off : Nat) (k : Nat) : State := s.onBoard (fun b => b.inc (treePage n) off k)

/-! ### Messages (R260) -/

/-- The header of a FULL-class message. -/
structure FullHdr where
  kind : Nat
  tree : Nat
  attempt : Nat
  e : Int
  step : Nat
  index : Nat
  elements : Nat
  width : Nat
  nonfin : Nat
  rack : Nat
  contrib : Nat
  sat : Nat
  deriving DecidableEq, Repr

/-- The header in the first 32 bytes. -/
def FullHdr.ofBytes (bs : Bytes) : FullHdr :=
  { kind := leAt bs 0 1, tree := leAt bs 1 1 % 64, attempt := leAt bs 2 1, e := signedOf 8 (leAt bs 3 1), step := leAt bs 4 4,
    index := leAt bs 8 4, elements := leAt bs 12 4, width := leAt bs 16 1 % 2, nonfin := leAt bs 16 1 / 2 % 2, rack := leAt bs 18 2 % 4096,
    contrib := leAt bs 20 4, sat := leAt bs 24 8 }

/-- The 32 bytes of a header. -/
def FullHdr.bytes (h : FullHdr) : Bytes :=
  bodyOf 32 [(0, 1, h.kind), (1, 1, h.tree), (2, 1, h.attempt), (3, 1, codeOf 8 h.e), (4, 4, h.step), (8, 4, h.index), (12, 4, h.elements),
    (16, 1, h.width + 2 * h.nonfin), (18, 2, h.rack), (20, 4, h.contrib), (24, 8, h.sat)]

/-- A header of the open invocation. -/
def State.tHead (s : State) (n kind index : Nat) : FullHdr :=
  let t := s.tree n
  { kind := kind, tree := n, attempt := t.attempt, e := t.e, step := t.step, index := index, elements := t.elements, width := 0, nonfin := 0,
    rack := s.rack, contrib := 0, sat := 0 }

/-- Sends a FULL message on an engine group. -/
def State.sendFull (s : State) (g : Nat) (body : Bytes) : State := s.sendMsg g 3 0 body

/-- Sends a header to every child. -/
def State.toKids (s : State) (n : Nat) (h : FullHdr) : State :=
  (List.range (s.tKids n)).foldl (fun s k => s.sendFull (s.tChild n k).2 h.bytes) s

/-- The sparse form on a link of the tree (R118, R275). -/
def State.tMaySparse (s : State) (n g : Nat) : Bool :=
  s.tSparse n && s.sesFeature g 2 && decide (2 ≤ (s.tree n).level) &&
    (s.board.groupRole g == 1 || (decide (s.store.variant = 0) && s.feature 3))

/-- Sends a segment of sums, SEG or DOWN: its width, its form and its counts (R263, R275, R280). -/
def State.sendSums (s : State) (n kind k g : Nat) (sums : List Int) (partial_ : Bool) : State :=
  let fits := sums.all (fun x => decide (x.natAbs ≤ 2 ^ 23 - 1))
  let narrow := fits && (!partial_ || (decide (2 ≤ s.sesLevel g) && s.sesFeature g 3))
  let w := if narrow then 24 else 48
  let blk := encodeBlock (narrow && s.tMaySparse n g) w (sums.map (codeOf w))
  let dense := denseLen w sums.length
  let sparse := decide (blk.length < dense)
  let s1 := s.sendFull g ({ s.tHead n kind k with width := b2n !narrow }.bytes ++ blk)
  s1.onBoard (fun b =>
    let p := treePage n
    let b1 := b.inc p (if sparse then Cn.fulBlocksSparse else Cn.fulBlocksDense) 1
    b1.inc p Cn.fulBytesSaved (dense - blk.length))

/-- WIN to every child: the release point plus the window (R265). -/
def State.sendWin (s : State) (n : Nat) : State :=
  let t := s.tree n
  (s.setTree n { t with winAt := t.released }).toKids n (s.tHead n 3 (t.released + s.tWindow n))

/-! ### The local operator (R155, R261, R267, R268) -/

/-- The FULL_REDUCE of tree n that is in flight at a context's queue index: its descriptor. -/
def State.tHolds (s : State) (n : Nat) (o : Nat × Nat) : Option Desc :=
  ((s.live o.1).find? (fun r => r.qindex == o.2 && (Desc.ofBytes r.desc).opcode == 0x70 && (Desc.ofBytes r.desc).param 1 == n)).map
    (fun r => Desc.ofBytes r.desc)

/-- The oldest FULL_REDUCE in flight on the tree: context, queue index, descriptor. -/
def State.tOp (s : State) (n : Nat) : Option (Nat × Nat × Desc) :=
  (s.tree n).ops.findSome? (fun o => (s.tHolds n o).map (fun d => (o.1, o.2, d)))

/-- T0's elements. -/
def Desc.gradElems (d : Desc) : Nat := (d.slot 0).allRows * (d.slot 0).cols

/-- E = PARAM0 as a signed integer. -/
def Desc.exponent (d : Desc) : Int := signedOf 32 (d.param 0)

/-- The FULL_REDUCE operator: T1 is refused under KIND 0 (R268). -/
def fullDef (s : State) : OpDef :=
  { opcode := 0x70, subops := [0], lowest := 1, arity := fun _ => [1, 2],
    fmts := fun d i => if i = 0 then fF32 else if s.tAll (d.param 1) then [0, 11] else [],
    outs := fun _ => [1], pair := fun _ => none,
    shape := fun d =>
      let a := d.slot 0
      let b := d.slot 1
      if d.ntens = 2 ∧ ¬(b.rows = a.rows ∧ b.batch = a.batch ∧ b.cols = (if b.fmt = 11 then 2 * a.cols else a.cols)) then some 1 else none,
    param := fun _ d => decide (d.exponent < -126) || decide (127 < d.exponent) || decide (63 < d.param 1),
    alone := true, run := fun _ _ _ => RunOut.nil }

/-- Gives the oldest operator its segments to send. -/
def State.tNextOp (s : State) (n : Nat) : State :=
  let t := s.tree n
  let t1 := { t with ops := t.ops.filter (fun o => (s.tHolds n o).isSome) }
  let s1 := s.setTree n t1
  match s1.tOp n with
  | some (_, _, d) => s1.setTree n { t1 with left := List.range (ceilDiv d.gradElems 256), level := d.level, localSat := 0, localNf := 0 }
  | none => s1.setTree n { t1 with left := [], level := 0, localSat := 0, localNf := 0 }

/-- Lets go of an operator that ended without its tree: an error, a reset of its context, an abort. -/
def State.tSettle (s : State) (n : Nat) : State :=
  match (s.tree n).ops.head? with
  | some o => if (s.tHolds n o).isSome then s else s.tNextOp n
  | none => s

/-- FULL_REDUCE (R155): its segments leave through LOCAL_SEGMENT. -/
def execFullReduce (ctx : Nat) (s : State) : Host.Outcome State Fault Refusal :=
  done s (
    let q := s.ci ctx
    let d := Desc.ofBytes ((s.nextDesc ctx).getD [])
    let s1 := s.startOp (fullDef s) ctx
    if !s1.inFlight ctx q then s1
    else
      let n := d.param 1
      let s2 := s.tSettle n
      let s3 := s1.setTree n { s2.tree n with ops := (s2.tree n).ops ++ [(ctx, q)] }
      if (s2.tree n).ops.isEmpty then s3.tNextOp n else s3)

/-- The bytes of one result element in T1: FP32, or the two 24-bit halves of FMT 11 (R268). -/
def resultBytes (e : Int) (fmt : Nat) (v : Int) : Bytes :=
  if fmt = 11 then toLE 6 (codeOf 48 v) else toLE 4 (round32 (Val.ofInt v (e - 23))).toNat

/-- Delivers a reduced segment locally: into T1 of the tree's operator. -/
def State.tDeliver (s : State) (n k : Nat) (vs : List Int) : State :=
  let s1 := s.fulCount n Cn.fulSegsDown 1
  match s.tOp n with
  | some (_, _, d) =>
    if d.ntens ≠ 2 then s1
    else
      let b := d.slot 1
      let c0 := (d.slot 0).cols
      let sz := if b.fmt = 11 then 6 else 4
      (vs.zip (List.range vs.length)).foldl (fun s p =>
        let i := 256 * k + p.2
        s.wrBytes (b.addr + i / c0 * b.stride + i % c0 * sz) (resultBytes (s.tree n).e b.fmt p.1)) s1
  | none => s1

/-- FULL_REDUCE completes, with the SAT total that the node knows in AUX and the matching flag (R267). -/
def State.tFinishOp (s : State) (n sat nf : Nat) : State :=
  match s.tOp n with
  | none => s
  | some (c, q, _) =>
    let t := s.tree n
    let amend := fun (r : Rec) => { r with aux := sat32 sat, nonfinite := decide (nf ≠ 0), satCount := t.localSat, nonfiniteCount := t.localNf }
    let s1 := s.updCtx c (fun x => { x with ops := x.ops.map (fun o => if o.qindex == q && !o.complete then { o with record := amend o.record } else o) })
    let s2 := s1.onBoard (fun b => (b.inc (Pg.core (s1.lead c)) Cn.coreSatCount t.localSat).inc (Pg.core (s1.lead c)) Cn.coreNonfiniteCount t.localNf)
    (s2.completeOp c q).tNextOp n

/-! ### Invocations (R259, R263 to R267) -/

/-- Opens an invocation; E and ELEMENTS come from its first arrival. -/
def State.tOpen (s : State) (n step attempt : Nat) (e : Int) (elements : Nat) : State :=
  let t := s.tree n
  let t1 := { Tree.init with
    applied := t.applied, ops := t.ops, left := t.left, level := t.level, localSat := t.localSat, localNf := t.localNf, audit := t.audit,
    isOpen := true, seen := true, step := step, attempt := attempt, e := e, elements := elements }
  ((s.setTree n t1).sendWin n).syncTree n

/-- The audit of a replayed invocation that closes: check sums that both attempts have must agree (R276). -/
def State.tAudit (s : State) (n : Nat) : State :=
  let t := s.tree n
  let bad := (s.tIds n).filter (fun i => t.audit.any (fun a => decide (a.1 / 2 ^ 32 = i) && t.crcs.any (fun c => c.1 == a.1 && !(c.2 == a.2))))
  let s1 := s.setTree n { t with audit := [] }
  if bad.isEmpty then s1
  else
    let s2 := s1.onBoard (fun b => (b.inc (treePage n) Cn.fulAuditMismatches bad.length).raise (treePage n) F.fulEventAuditMismatch)
    s2.reportB t.step

/-- Closes the invocation. -/
def State.tClose (s : State) (n : Nat) : State :=
  let s1 := s.tAudit n
  let t := s1.tree n
  (s1.setTree n { t with isOpen := false, contribs := [], sums := [], wide := [], results := [], crcs := [], watch := none, downWatch := none }).syncTree n

/-- The totals over the contributors' ENDs: CONTRIB, SAT, NONFINITE; none while one is missing. -/
def State.tTotals (s : State) (n : Nat) : Option (Nat × Nat × Nat) :=
  (s.tIds n).foldl (fun (a : Option (Nat × Nat × Nat)) i =>
    match a, ((s.tree n).con i).ended with
    | some x, some y => some (x.1 + y.1, x.2.1 + y.2.1, max x.2.2 y.2.2)
    | _, _ => none) (some (0, 0, 0))

/-- An END or DOWN_END header. -/
def State.tEndHdr (s : State) (n kind : Nat) (x : Nat × Nat × Nat) : FullHdr :=
  { s.tHead n kind (s.tree n).nseg with contrib := x.1, sat := x.2.1, nonfin := x.2.2 }

/-- DOWN_END: to every child after the last DOWN, and handled locally; the invocation closes. -/
def State.tDownEnd (s : State) (n : Nat) (x : Nat × Nat × Nat) : State :=
  ((s.toKids n (s.tEndHdr n 5 x)).tFinishOp n x.2.1 x.2.2).tClose n

/-- END, once the last segment is released and every contributor has ended (R267). -/
def State.tEnds (s : State) (n : Nat) : State :=
  let t := s.tree n
  if !t.isOpen || t.dead || decide (t.released < t.nseg) then s
  else
    let s1 := match t.endSent, s.tTotals n with
      | false, some x =>
        if s.tAll n && s.tRoot n then s.tDownEnd n x
        else
          let s2 := (s.setTree n { t with endSent := true }).sendFull (s.tParent n).2 (s.tEndHdr n 2 x).bytes
          if s.tAll n then s2 else (s2.tFinishOp n x.2.1 x.2.2).tClose n
      | _, _ => s
    let t1 := s1.tree n
    match t1.isOpen && t1.endSent && s1.tAll n, t1.downEnd with
    | true, some x => s1.tDownEnd n x
    | _, _ => s1

/-- Clamps a completed sum (R263 step 1): the value and whether it was clamped. -/
def clampSum (x : Int) : Int × Bool :=
  if x > 2 ^ 47 - 1 then (2 ^ 47 - 1, true) else if x < -(2 ^ 47 - 1) then (-(2 ^ 47 - 1), true) else (x, false)

/-- The node finishes its next segment: up to the parent, or down from the top of a KIND 1 tree. -/
def State.tSend (s : State) (n : Nat) : State :=
  let t := s.tree n
  let k := t.up
  let cs := ((t.sums.find? (fun x => x.1 == k)).map Prod.snd |>.getD []).map clampSum
  let vs := cs.map Prod.fst
  let clamped := (cs.filter Prod.snd).length
  let s1 := (s.setTree n { t with up := k + 1 }).onBoard (fun b =>
    if clamped = 0 then b else (b.inc (treePage n) Cn.fulAccSat clamped).raise (treePage n) F.fulEventAccSat)
  if s1.tAll n && s1.tRoot n then
    let s2 := s1.tDeliver n k vs
    ((List.range (s2.tKids n)).foldl (fun s c => s.sendSums n 4 k (s.tChild n c).2 vs true) s2).fulCount n Cn.fulSegsDown (s2.tKids n)
  else
    (s1.sendSums n 1 k (s1.tParent n).2 vs (decide (1 < (s1.tIds n).length) || t.wide.contains k)).fulCount n Cn.fulSegsUp 1

/-- Sends every segment that can go, in ascending order (R264): complete, and below the parent's WIN on a module link. -/
def State.tGo (n : Nat) : Nat → State → State
  | 0, s => s
  | f + 1, s =>
    let t := s.tree n
    let free := s.tRoot n || decide (t.up < t.winParent)
    if t.isOpen && !t.dead && decide (t.up < t.nseg) && free && decide (t.up < t.released + s.tWindow n) && s.tComplete n t.up then
      State.tGo n f (s.tSend n)
    else s

/-- Forwards the DOWN segments that have come, in ascending order: delivered locally and sent to every child (R257). -/
def State.tDown (n : Nat) : Nat → State → State
  | 0, s => s
  | f + 1, s =>
    let t := s.tree n
    match t.results.find? (fun r => r.1 == t.down) with
    | none => s
    | some r =>
      let s1 := s.setTree n { t with down := t.down + 1, results := t.results.erase r }
      let s2 := s1.tDeliver n r.1 r.2
      let s3 := ((List.range (s2.tKids n)).foldl (fun s c => s.sendSums n 4 r.1 (s.tChild n c).2 r.2 true) s2).fulCount n Cn.fulSegsDown (s2.tKids n)
      State.tDown n f s3

/-- Everything that can go, and the ends. -/
def State.tRun (s : State) (n : Nat) : State :=
  let w := s.tWindow n + 1
  ((State.tDown n w (State.tGo n w s)).tEnds n).syncTree n

/-- SEGMENT_RELEASE (R264): the links have acknowledged the lowest unreleased segment; a WIN follows every 64 segments. -/
def execSegmentRelease (tree : Nat) (s : State) : Host.Outcome State Fault Refusal :=
  done s (
    let t := s.tree tree
    let may := t.isOpen && !t.dead && !s.quiet && decide (t.released < t.up) && (!s.tAll tree || s.tRoot tree || decide (t.released < t.down))
    if !may then s
    else
      let k := t.released
      let s1 := s.setTree tree { t with
        released := k + 1, sums := t.sums.filter (fun x => !(x.1 == k)), wide := t.wide.filter (fun x => !(x == k)),
        contribs := t.contribs.map (fun c => { c with segs := c.segs.filter (fun x => !(x == k)) }) }
      (if k + 1 ≥ t.winAt + 64 then s1.sendWin tree else s1).tRun tree)

/-! ### Contributions -/

/-- The check sum of a delivered segment (R51, R276). -/
def segCrc (k : Nat) (vs : List Int) : Nat := crc64 (packCodes 48 (vs.map (codeOf 48)) ++ toLE 8 k)

/-- Adds a contributor's segment (R263). -/
def State.tAdd (s : State) (n i k : Nat) (vs : List Int) (isWide : Bool) : State :=
  let t := s.tree n
  let c := t.con i
  let old := (t.sums.find? (fun x => x.1 == k)).map Prod.snd
  let new := match old with
    | some o => (o.zip vs).map (fun p => p.1 + p.2)
    | none => vs
  let t1 := t.setCon i { c with segs := c.segs ++ [k] }
  s.setTree n { t1 with sums := t1.sums.filter (fun x => !(x.1 == k)) ++ [(k, new)], wide := if isWide then t1.wide ++ [k] else t1.wide,
                        crcs := t1.crcs ++ [(i * 2 ^ 32 + k, segCrc k vs)] }

/-- A contributor's END. -/
def State.tEnded (s : State) (n i : Nat) (x : Nat × Nat × Nat) : State :=
  let t := s.tree n
  s.setTree n (t.setCon i { t.con i with ended := some x })

/-- How a name stands to the slot's open or last invocation (R259, R270): 0 stale, 1 the open one, 2 a new one. -/
def Tree.named (t : Tree) (step attempt : Nat) : Nat :=
  if t.seen && decide (step = t.step) && decide (attempt = t.attempt) then (if t.isOpen then 1 else 0)
  else if !t.seen || decide (t.step < step) || (decide (step = t.step) && decide (t.attempt < attempt)) then 2
  else 0

/-- Element i of the gradient tensor. -/
def State.gradElem (s : State) (d : Desc) (i : Nat) : Val :=
  let a := d.slot 0
  val32 (BitVec.ofNat 32 (natAt s.rdByte (a.addr + i / a.cols * a.stride + 4 * (i % a.cols)) 4))

/-- LOCAL_SEGMENT (R261): the core converts the segment and its engine accepts it; after the last one the lead core sends END. -/
def execLocalSegment (core tree seg : Nat) (s : State) : Host.Outcome State Fault Refusal :=
  done s (
    let s := s.tSettle tree
    match s.tOp tree with
    | none => s
    | some (c, _, d) =>
      let t := s.tree tree
      let step := s.stepOf c
      let att := s.attemptOf step
      if !(s.partCores (s.partOf c)).contains core || !t.left.contains seg then s
      else if !s.inService || !s.tOn tree then s.fulCount tree Cn.fulDiscardState 1
      else if !s.tLocal tree then s.fulCount tree Cn.fulForeign 1
      else if t.named step att = 0 then s.fulCount tree Cn.fulStale 1
      else
        let s1 := if t.named step att = 2 then s.tOpen tree step att d.exponent d.gradElems else s
        let t1 := s1.tree tree
        if t1.dead then s1
        else if t1.e ≠ d.exponent ∨ t1.elements ≠ d.gradElems then s1.fulCount tree Cn.fulEMismatch 1
        else if (t1.con 0).segs.contains seg || decide (seg < t1.released) then s1.fulCount tree Cn.fulWindowViolation 1
        else if seg ≥ t1.released + s1.tWindow tree then s1
        else
          let qs := (List.range (t1.segLen seg)).map (fun i => fulledElem t1.e (s1.gradElem d (256 * seg + i)))
          let s2 := (s1.tAdd tree 0 seg (qs.map (fun q => q.1)) false).fulCount tree Cn.fulSegsLocal 1
          let t2 := s2.tree tree
          let t3 := { t2 with left := t2.left.erase seg, localSat := t2.localSat + (qs.filter (fun q => q.2.1)).length,
                              localNf := t2.localNf + (qs.filter (fun q => q.2.2)).length }
          let s3 := s2.setTree tree t3
          (if t3.left.isEmpty then s3.tEnded tree 0 (1, t3.localSat, b2n (decide (t3.localNf ≠ 0))) else s3).tRun tree)

/-! ### Admission (R270) -/

/-- Who sends a message: a child's contributor number for SEG and END, 0 for the parent. -/
def State.tSender (s : State) (n : Nat) (h : FullHdr) : Option Nat :=
  if h.kind ≤ 2 then
    ((List.range (s.tKids n)).find? (fun k => (s.tChild n k).1 == h.rack)).map (· + 1)
  else if !s.tRoot n && (s.tParent n).1 == h.rack && (h.kind == 3 || s.tAll n) then some 0
  else none

/-- Check 6: the link block of a SEG or DOWN as signed elements; nothing beyond its pad to 4 B (R117, R270). -/
def segBlock (h : FullHdr) (n : Nat) (body : Bytes) : Option (List Int) :=
  let w := if h.width = 1 then 48 else 24
  match decodeBlock (h.width == 1) w n (body.drop 32) with
  | some (codes, rest) => if rest.isEmpty then some (codes.map (signedOf w)) else none
  | none => none

/-- What an admitted message does. -/
def State.tTake (s : State) (n i : Nat) (h : FullHdr) (body : Bytes) : State :=
  let t := s.tree n
  if h.kind = 3 then (s.setTree n { t with winParent := max t.winParent h.index }).tRun n
  else if h.kind = 2 then (if (t.con i).ended.isSome then s else s.tEnded n i (h.contrib, h.sat, h.nonfin)).tRun n
  else if h.kind = 5 then (s.setTree n { t with downEnd := some (h.contrib, h.sat, h.nonfin) }).tRun n
  else
    let had := if h.kind = 1 then (t.con i).segs.contains h.index || decide (h.index < t.released)
      else decide (h.index < t.down) || t.results.any (fun r => r.1 == h.index)
    if had || decide (t.nseg ≤ h.index) || decide (t.released + s.tWindow n ≤ h.index) then s.fulCount n Cn.fulWindowViolation 1
    else
      match segBlock h (t.segLen h.index) body with
      | none => s.onBoard (fun b => (b.inc (treePage n) Cn.fulMalformed 1).raise (treePage n) F.fulEventMalformed)
      | some vs =>
        if h.kind = 1 then ((s.tAdd n i h.index vs (h.width == 1)).fulCount n Cn.fulSegsPeer 1).tRun n
        else (s.setTree n { t with results := t.results ++ [(h.index, vs)] }).tRun n

/-- The checks of R270 on a FULL message. -/
def State.fullIn (s : State) (body : Bytes) : State :=
  let h := FullHdr.ofBytes body
  let n := h.tree
  if body.length < 32 ∨ h.kind = 0 ∨ 5 < h.kind then s
  else if !s.inService || !s.tOn n then s.fulCount n Cn.fulDiscardState 1
  else
    match s.tSender n h with
    | none => s.fulCount n Cn.fulForeign 1
    | some i =>
      let t := s.tree n
      let k := t.named h.step h.attempt
      if k = 0 then s.fulCount n Cn.fulStale 1
      else
        let s1 := if k = 2 then s.tOpen n h.step h.attempt h.e h.elements else s
        let t1 := s1.tree n
        if t1.dead then s1
        else if t1.e ≠ h.e ∨ t1.elements ≠ h.elements then s1.fulCount n Cn.fulEMismatch 1
        else s1.tTake n i h body

/-- A FULL message of one kind at an engine group. -/
def fullMsg (kind group : Nat) (body : Bytes) (s : State) : State :=
  s.arrives group 3 (fun s => if (FullHdr.ofBytes body).kind = kind then s.fullIn body else s)

/-- SEG (R270). -/
def execSeg (group : Nat) (body : Bytes) (s : State) : Host.Outcome State Fault Refusal := done s (fullMsg 1 group body s)

/-- END (R267). -/
def execEndMsg (group : Nat) (body : Bytes) (s : State) : Host.Outcome State Fault Refusal := done s (fullMsg 2 group body s)

/-- WIN (R265). -/
def execWin (group : Nat) (body : Bytes) (s : State) : Host.Outcome State Fault Refusal := done s (fullMsg 3 group body s)

/-- DOWN (R268). -/
def execDown (group : Nat) (body : Bytes) (s : State) : Host.Outcome State Fault Refusal := done s (fullMsg 4 group body s)

/-- DOWN_END (R267). -/
def execDownEnd (group : Nat) (body : Bytes) (s : State) : Host.Outcome State Fault Refusal := done s (fullMsg 5 group body s)

/-! ### The missing-contributor rule (R271 to R273) -/

/-- The crown's answer to a missing-contributor notice (R272, R338, R340). -/
def State.missNotice (s : State) (body : Bytes) : State :=
  let s1 := s.onBoard (fun b => b.inc Pg.role Cn.roleNotices 1)
  if s1.gridRuns && decide (leAt body 3 1 = s1.attemptOf (leAt body 4 4)) then
    (s1.excludeNamed (leAt body 0 2 % 4096) (leAt body 4 4) (leAt body 12 2)).decideAbort (leAt body 4 4) 1
  else s1

/-- A missing-contributor notice to the crown. -/
def State.tellMissing (s : State) (n seg mask : Nat) : State :=
  let t := s.tree n
  let body := bodyOf 32 [(0, 2, s.rack), (2, 1, n), (3, 1, t.attempt), (4, 4, t.step), (8, 4, seg), (12, 2, mask)]
  if s.holdsTop then s.missNotice body else s.toCrown 1 0x21 body

/-- The deadline fires for a segment. -/
def State.tMissing (s : State) (n seg mask : Nat) : State :=
  let s1 := (s.setTree n { s.tree n with dead := true }).onBoard (fun b =>
    ((b.setFld (treePage n) (F.fulTreeMissingMask (treeSlot n)) mask).inc (treePage n) Cn.fulMissing 1).raise (treePage n) F.fulEventMissing)
  s1.tellMissing n seg mask

/-- MISSING_DEADLINE (R271): the lowest incomplete segment, or the DOWN segment that a KIND 1 node awaits, after DEADLINE boundaries.
A missing parent has no bit in the mask (R271 names bits for contributors only). -/
def execMissingDeadline (tree : Nat) (s : State) : Host.Outcome State Fault Refusal :=
  done s (
    let t := s.tree tree
    if !t.isOpen || t.dead || !s.inService then s
    else
      match t.watch, t.downWatch with
      | some (k, w), dw =>
        if s.tDeadline tree ≤ w ∧ !s.tComplete tree k then
          s.tMissing tree k (maskOfList ((s.tIds tree).filter (fun i => !(t.con i).segs.contains k)))
        else
          (match dw with
           | some (j, v) => if s.tDeadline tree ≤ v ∧ t.down = j then s.tMissing tree j 0 else s
           | none => s)
      | none, some (j, v) => if s.tDeadline tree ≤ v ∧ t.down = j then s.tMissing tree j 0 else s
      | none, none => s)

/-- A tick boundary passes for a tree: the deadline counts run (the first boundary after a segment became the lowest incomplete one counts 1,
the boundary after a release upward starts the count of its DOWN segment), WIN after a release point that has moved, and the slot's registers take
effect while no invocation is open (R265, R271, R279). -/
def State.treeBoundary (s : State) (n : Nat) : State :=
  let t := s.tree n
  if !t.isOpen then
    let ws := (treeCfgOffs (treeSlot n)).map (fun o => s.board.rd (treePage n) o)
    if ws = (treeCfgOffs (treeSlot n)).map (fun o => resetWord .ful o) then s.setTree n { t with applied := [] } else s.setTree n { t with applied := ws }
  else
    let bump := fun (first : Nat) (o : Option (Nat × Nat)) (k : Option Nat) =>
      match k, o with
      | some k, some (j, w) => if j = k then some (k, w + 1) else some (k, first)
      | some k, none => some (k, first)
      | none, _ => none
    let low := s.tLowest n t.released (s.tWindow n)
    let dn := if s.tAll n && !s.tRoot n && decide (t.down < t.up) then some t.down else none
    let s1 := s.setTree n { t with watch := bump 1 t.watch low, downWatch := bump 0 t.downWatch dn }
    if t.winAt < t.released && !t.dead && !s.quiet then s1.sendWin n else s1

/-- Clears an open invocation (R272): the accumulators and the window; the check sums stay for an audit (R276). -/
def State.tClear (s : State) (n : Nat) (audit : Bool) : State :=
  let t := s.tree n
  if !t.isOpen then s
  else
    ((s.setTree n { Tree.init with
      applied := t.applied, ops := t.ops, seen := true, step := t.step, attempt := t.attempt, audit := if audit then t.crcs else [] }).fulCount n
      Cn.fulAborts 1).syncTree n

/-- The trees that are not in their initial state. -/
def State.treeNums (s : State) : List Nat := s.trees.map Prod.fst

/-- At the abort boundary every invocation of the aborted step is cleared (R272); an audit follows an abort for another class B fault
(R276). -/
def State.treesAbort (s : State) (step reason : Nat) : State :=
  s.treeNums.foldl (fun s n => if (s.tree n).step = step then (s.tClear n (decide (3 ≤ reason))).tNextOp n else s) s

/-- A compute reset clears the open invocations, one notice each that names bit 0 (R273). -/
def State.treesReset (s : State) : State :=
  s.treeNums.foldl (fun s n => if (s.tree n).isOpen then (s.tellMissing n ((s.tLowest n (s.tree n).released (s.tWindow n)).getD 0) 1).tClear n false else s) s

/-- A FULL_REDUCE of partition p has segments left and none of them lies within the window (R262, R274): its trees. -/
def State.backlogTrees (s : State) (p : Nat) : List Nat :=
  s.treeNums.filter (fun n =>
    match s.tOp n with
    | some (c, _, _) =>
      let t := s.tree n
      decide (s.partOf c = p) && t.isOpen && !t.left.isEmpty && t.left.all (fun k => decide (t.released + s.tWindow n ≤ k))
    | none => false)

/-- Counts fulling_backlog on the engines (R274). -/
def State.countBacklog (s : State) (ns : List Nat) : State :=
  s.onBoard (fun b => (ns.map treePage).eraseDups.foldl (fun b p => (b.inc p Cn.fulBacklogTicks 1).raise p F.fulEventBacklog) b)

end Sys2Proof.Machine
end

