-- ==== Sys2Proof/Machine/Collectives.lean ====
section
/-! DEFINITION. The collectives BROADCAST and ALLGATHER and the PEER messages that carry them (05_sniash: R155; 11: R329, R331;
10: R301; 04: R115 to R118), and OPERATOR_COMPLETE. -/
namespace Sys2Proof.Machine

/-! ### Members and trees (R329, R331) -/

/-- PARAM1 of the whole job. -/
def wholeJob : Nat := 0xFFFFFFFF

/-- The job ranks that a collective spans, as first rank and count: the whole job, or the block of GROUP_CFG.SIZE ranks that holds
this module's rank (DEDUCED, notes/assumptions/25.md). -/
def State.members (s : State) (group : Nat) : Nat × Nat :=
  if group = wholeJob then (0, s.jobSize)
  else
    let k := max 1 s.groupSize
    let lo := s.rank / k * k
    (lo, min k (s.jobSize - lo))

/-- PARAM1 names no collective group of this module (R329). -/
def State.badGroup (s : State) (group : Nat) : Bool :=
  !(group == wholeJob) && !(group == s.board.fld Pg.role F.roleGroupCfgGroupId)

/-- This module's children in the collective's heap rooted at a rank (R331). -/
def State.collKids (s : State) (group root : Nat) : List Nat :=
  let m := s.members group
  (heapChildren m.2 (root - m.1) 16 (s.rank - m.1)).map (· + m.1)

/-! ### Sending (R301, R115, R116, R118) -/

/-- Bytes of one PEER message: whole elements and whole link blocks of every format. -/
def peerChunk : Nat := 6291456

/-- The header of a PEER body. -/
def peerHead (dest ctx fmt form elems : Nat) : Bytes :=
  toLE 8 (dest % 2 ^ 52) ++ toLE 4 (ctx % 256 + 256 * (fmt % 256) + 2 ^ 16 * (form % 256)) ++ (if form = 1 then toLE 4 elems else [])

/-- This core's PEER sends may use the sparse form (R118): the licence on a TD3-X, and LINK_COMPRESS_EN. -/
def State.mayCompress (s : State) (core : Nat) : Bool :=
  decide (s.store.variant = 0) && s.feature 3 && s.board.flag (Pg.spx core) F.spxControlLinkCompressEn

/-- The link blocks of a byte string of elements of `w` bits. -/
def linkBlocks (allowed : Bool) (w : Nat) (bs : Bytes) : List (List Nat × Bytes) :=
  (chunks 256 (unpackCodes w (8 * bs.length / w) bs)).map (fun cs => (cs, encodeBlock allowed w cs))

/-- Sends bytes of context n to a rank, at an address of its unified range; `w` is the element width for link blocks, 0 for raw
bytes. The lead core's stream engine encodes and counts the blocks. -/
def State.sendPeer (s : State) (n rank dest fmt w : Nat) (bs : Bytes) : State :=
  match (s.rankRack rank).bind s.peerGroup with
  | none => s
  | some g =>
    if w = 0 then s.sendMsg g 4 0 (peerHead dest n fmt 0 0 ++ bs)
    else
      let core := s.lead n
      let blks := linkBlocks (s.mayCompress core && s.sesFeature g 1) w bs
      let dense := (blks.map (fun b => denseLen w b.1.length)).sum
      let sent := (blks.map (fun b => b.2.length)).sum
      let sparse := (blks.filter (fun b => decide (b.2.length < denseLen w b.1.length))).length
      (s.sendMsg g 4 0 (peerHead dest n fmt 1 (8 * bs.length / w) ++ (blks.map Prod.snd).flatten)).onBoard (fun b =>
        ((b.inc (Pg.spx core) Cn.spxLinkBlocksSparse sparse).inc (Pg.spx core) Cn.spxLinkBlocksDense (blks.length - sparse)).inc (Pg.spx core)
          Cn.spxLinkBytesSaved (dense - sent))

/-- A run of bytes to send: where they stand here, where they go, how many, and their element width (0 for raw). -/
structure Piece where
  src : Nat
  dest : Nat
  len : Nat
  w : Nat
  deriving DecidableEq, Repr

/-- Sends a run in messages of at most `peerChunk` bytes. -/
def State.sendPiece (s : State) (n rank fmt : Nat) (x : Piece) : State :=
  (List.range (ceilDiv x.len peerChunk)).foldl (fun s i =>
    let o := i * peerChunk
    s.sendPeer n rank (x.dest + o) fmt x.w (s.rdBytes (x.src + o) (min peerChunk (x.len - o)))) s

/-- The runs of rows [lo, lo + k) of a dense tensor, and of their scales, sent to rows from `at_` of another tensor of its format
and columns: row by row where rows are padded. -/
def rowPieces (a b : Slot) (sa sb lo at_ k : Nat) : List Piece :=
  let w := a.f.bits
  let rows := if a.arr = 0 ∧ b.arr = 0 then [⟨a.addr + lo * a.stride, b.addr + at_ * b.stride, k * a.rowBytes, w⟩]
    else (List.range k).map (fun i => (⟨a.addr + (lo + i) * a.stride, b.addr + (at_ + i) * b.stride, a.rowBytes, w⟩ : Piece))
  rows ++ (if a.f.isMx then [⟨sa + lo * a.blocks, sb + at_ * b.blocks, k * a.blocks, 0⟩] else [])

/-- Sends runs to every one of some ranks; DEST is the same unified address as here (DEDUCED, notes/assumptions/25.md). -/
def State.sendTo (s : State) (n fmt : Nat) (ranks : List Nat) (ps : List Piece) : State :=
  ranks.foldl (fun s r => ps.foldl (fun s x => s.sendPiece n r fmt x) s) s

/-! ### BROADCAST and ALLGATHER (R155) -/

/-- Formats of the collectives: every value format, INT32 and fulled (R493). -/
def collFmts : List Nat := [0, 1, 2, 3, 4, 5, 6, 7, 8, 9, 10, 11]

/-- BROADCAST: T0 buffer; PARAM0 root rank, PARAM1 group. -/
def broadcastDef : OpDef :=
  { opcode := 0x71, subops := [0], lowest := 1, arity := fun _ => [1], fmts := fun _ _ => collFmts, outs := fun _ => [0],
    pair := fun _ => none, shape := fun _ => none,
    param := fun s d =>
      let m := s.members (d.param 1)
      s.badGroup (d.param 1) || decide (d.param 0 < m.1) || decide (m.1 + m.2 ≤ d.param 0),
    alone := true, run := fun _ _ _ => RunOut.nil }

/-- T0's runs, to the same places. -/
def State.castPieces (s : State) (n : Nat) (d : Desc) : List Piece :=
  let t := d.slot 0
  let a := (s.auxOf n t).1
  rowPieces t t a a 0 0 t.allRows

/-- The root sends T0 to its children. -/
def State.castSend (s : State) (n : Nat) (d : Desc) : State :=
  s.sendTo n (d.slot 0).fmt (s.collKids (d.param 1) (d.param 0)) (s.castPieces n d)

/-- ALLGATHER: T0 shard, T1 out with the members' rows; PARAM1 group. The shard's arrangement may differ from T1's only in the
padding of rows. -/
def allgatherDef (s : State) : OpDef :=
  { opcode := 0x72, subops := [0], lowest := 2, arity := fun _ => [2], fmts := fun _ _ => collFmts, outs := fun _ => [1],
    pair := fun d => if (d.slot 0).fmt == (d.slot 1).fmt then none else some 1,
    shape := fun d =>
      let a := d.slot 0
      let b := d.slot 1
      if b.batch = a.batch ∧ b.cols = a.cols ∧ b.rows = (s.members (d.param 1)).2 * a.rows then none else some 1,
    param := fun s d => s.badGroup (d.param 1), alone := true,
    run := fun s n d =>
      let a := d.slot 0
      let b := d.slot 1
      let sa := (s.auxOf n a).1
      let sb := (s.auxOf n b).1
      let m := s.rank - (s.members (d.param 1)).1
      { RunOut.nil with
        writes := (List.range a.batch).flatMap (fun i =>
          (rowPieces a b sa sb (i * a.rows) (i * b.rows + m * a.rows) a.rows).map (fun x => (x.dest, s.rdBytes x.src x.len))) } }

/-- The runs of member m's shard within T1. -/
def State.shardPieces (s : State) (n : Nat) (d : Desc) (m : Nat) : List Piece :=
  let a := d.slot 0
  let b := d.slot 1
  let sb := (s.auxOf n b).1
  (List.range a.batch).flatMap (fun i => rowPieces b b sb sb (i * b.rows + m * a.rows) (i * b.rows + m * a.rows) a.rows)

/-- Each member's shard goes down the heap rooted at that member. At the start a member sends its own; T1's rows of it are read
where its own copy will stand, so the shard itself is the source. -/
def State.gatherSendOwn (s : State) (n : Nat) (d : Desc) : State :=
  let a := d.slot 0
  let b := d.slot 1
  let sa := (s.auxOf n a).1
  let sb := (s.auxOf n b).1
  let m := s.rank - (s.members (d.param 1)).1
  s.sendTo n a.fmt (s.collKids (d.param 1) s.rank) ((List.range a.batch).flatMap (fun i =>
    rowPieces a b sa sb (i * a.rows) (i * b.rows + m * a.rows) a.rows))

/-- The other members' shards, which have arrived, go on. -/
def State.gatherForward (s : State) (n : Nat) (d : Desc) : State :=
  let g := s.members (d.param 1)
  ((List.range g.2).filter (fun m => decide (m + g.1 ≠ s.rank))).foldl (fun s m =>
    s.sendTo n (d.slot 1).fmt (s.collKids (d.param 1) (m + g.1)) (s.shardPieces n d m)) s

/-- BROADCAST (R155). -/
def execBroadcast (ctx : Nat) (s : State) : Host.Outcome State Fault Refusal :=
  done s (
    let q := s.ci ctx
    let d := Desc.ofBytes ((s.nextDesc ctx).getD [])
    let s1 := s.startOp broadcastDef ctx
    if s1.inFlight ctx q && decide (d.param 0 = s.rank) then s1.castSend ctx d else s1)

/-- ALLGATHER (R155). -/
def execAllgather (ctx : Nat) (s : State) : Host.Outcome State Fault Refusal :=
  done s (
    let q := s.ci ctx
    let d := Desc.ofBytes ((s.nextDesc ctx).getD [])
    let s1 := s.startOp (allgatherDef s) ctx
    if s1.inFlight ctx q then s1.gatherSendOwn ctx d else s1)

/-! ### OPERATOR_COMPLETE (R140) -/

/-- The digest of a collective's output, which others' messages have written (R51, R141). -/
def State.collDigest (s : State) (n q : Nat) (d : Desc) : State :=
  if !d.digestEn then s
  else
    let v := digest (digestStream (s.ten n d (if d.opcode = 0x71 then 0 else 1)))
    s.updCtx n (fun c => { c with ops := c.ops.map (fun o => if o.qindex == q && !o.complete then
      { o with record := { o.record with digestValid := true, digest := v } } else o) })

/-- A collective completes: a member passes on what it has received, then completes. -/
def State.collComplete (s : State) (n : Nat) (o : OpRun) (d : Desc) : State :=
  let s1 := s.wrAll o.outW
  let s2 := if d.opcode = 0x72 then s1.gatherForward n d else if d.param 0 = s.rank then s1 else s1.castSend n d
  (s2.collDigest n o.qindex d).completeOp n o.qindex

/-- OPERATOR_COMPLETE (R140): an operator in flight completes. A layer mark completes only at its swap (R245), a FULL_REDUCE
only through its tree (R155), so those are left alone. -/
def execOperatorComplete (ctx qindex : Nat) (s : State) : Host.Outcome State Fault Refusal :=
  done s (match (s.live ctx).find? (fun o => o.qindex == qindex) with
    | some o =>
      let d := Desc.ofBytes o.desc
      if o.mark || d.opcode == 0x70 then s
      else if d.opcode = 0x71 ∨ d.opcode = 0x72 then s.collComplete ctx o d
      else s.completeOp ctx qindex
    | none => s)

/-! ### Receiving (R301, R117) -/

/-- The decoded data of FORM 1: whole blocks of 256 elements, then the short last one. -/
def peerData (w elems : Nat) (bs : Bytes) : Option Bytes :=
  let n := elems / 256
  let go := fun (k : Nat) => (List.range k).foldl (fun (acc : Option (Bytes × Bytes)) _ =>
    acc.bind (fun a => (decodeBlock false w 256 a.2).map (fun p => (a.1 ++ packCodes w p.1, p.2)))) (some ([], bs))
  match go n with
  | none => none
  | some (out, rest) =>
    if elems % 256 = 0 then (if rest.isEmpty then some out else none)
    else
      match decodeBlock false w (elems % 256) rest with
      | some (codes, r) => if r.isEmpty then some (out ++ packCodes w codes) else none
      | none => none

/-- Every byte lies in WRITABLE tier 0 pages of context n (R301). -/
def State.peerOk (s : State) (n a k : Nat) : Bool :=
  s.writablePages a k && (pagesOf a k).all (fun p => decide ((s.tier.entry p).tier = 0) && decide ((s.tier.entry p).ctx = n))

/-- The collective of context n that takes data at an address: the one in flight with an output there (R117). -/
def State.consumer (s : State) (n a : Nat) : Option Nat :=
  ((s.live n).find? (fun o => o.outputs.any (fun r => decide (r.lo ≤ a) && decide (a < r.hi)))).map (fun o => o.qindex)

/-- A PEER message's effect (R301): its data is written at DEST; a message outside the context's writable pages is discarded whole
and counted; a malformed one is discarded and counted, and the operator that consumes it ends with cause LINK_BLOCK (R117). -/
def State.peerIn (s : State) (g : Nat) (body : Bytes) : State :=
  let dest := leAt body 0 8 % 2 ^ 52
  let n := leAt body 8 1
  let form := leAt body 10 1
  let w := ((Fmt.ofCode (leAt body 9 1)).map Fmt.bits).getD 8
  let elems := leAt body 12 4
  let len := if form = 1 then ceilDiv (w * elems) 8 else body.length - 12
  if body.length < 12 then s
  else if !s.peerOk n dest len then
    s.onBoard (fun b => (b.inc (Pg.nol g) Cn.nolPeerRefused 1).raise (Pg.nol g) F.nolEventPeerRefused)
  else if form ≠ 1 then s.wrBytes dest (body.drop 12)
  else
    match peerData w elems (body.drop 16) with
    | some bs => s.wrBytes dest bs
    | none =>
      let s1 := s.onBoard (fun b => b.inc (Pg.nol g) Cn.nolPeerRefused 1)
      match s1.consumer n dest with
      | some q => s1.errOp n q Cause.linkBlock 0
      | none => s1

/-- PEER_MESSAGE (R301). -/
def execPeerMessage (group : Nat) (body : Bytes) (s : State) : Host.Outcome State Fault Refusal :=
  done s (s.arrives group 4 (fun s => s.peerIn group body))

end Sys2Proof.Machine
end

