-- ==== Sys2Proof/Machine/Hatband.lean ====
section
/-! DEFINITION. Engines, lanes, sessions, loopbacks and tier 3 reads (10_hatband_and_nolino: R281 to R312, R495). -/
namespace Sys2Proof.Machine

/-- A class B fault of the whole module is reported for the step of every running context (R338). -/
def State.reportModule (s : State) : State :=
  let ns := (List.range 16).filterMap s.runningCtx
  if ns.isEmpty then s.reportB s.faultStep else ns.foldl (fun s n => s.reportB (s.stepOf n)) s

/-! ### Engine states and lanes (R308, R316, R317) -/

/-- Sets ENG_STATE and keeps ENGINES_UP. -/
def State.setEng (s : State) (e v : Nat) : State := (s.onBoard (fun b => b.setFld (Pg.hb e) F.hbStatusEngState v)).countEngines (e / 4)

/-- Adds to a list in ascending order, once. -/
def addSorted (l : List Nat) (k : Nat) : List Nat := l.filter (fun x => decide (x < k)) ++ [k] ++ l.filter (fun x => decide (k < x))

/-- Keeps the active lanes and the spares that HB#e shows. -/
def State.syncLanes (s : State) (e : Nat) : State :=
  let x := s.engine e
  s.onBoard (fun b => b.setFlds (Pg.hb e) [(F.hbStatusSparesTx, min 3 x.txSpare.length), (F.hbStatusSparesRx, min 3 x.rxSpare.length),
    (F.hbTxActiveLanes, maskOfList x.txMap), (F.hbRxActiveLanes, maskOfList x.rxMap)])

/-! ### Loss of an engine (R306, R308, R311) -/

/-- Sends on another engine, with its number, a message whose EOM flit was not acknowledged. -/
def State.resend (s : State) (g : Nat) (m : SentMsg) : State :=
  match s.pickEngine g m.cls with
  | none => s
  | some e =>
    let x := s.group g
    let s1 := s.setGroup g { x with unacked := x.unacked.map (fun u => if u.cls == m.cls && u.gmsn == m.gmsn then { u with engine := e } else u) }
    (s1.onBoard (fun b => b.inc (Pg.nol g) Cn.nolMsgsResent 1)).putMsg e m.cls m.gmsn m.sub m.body

/-- What an engine that no longer carries traffic leaves behind: its messages go to the other engines, its partial messages are
discarded and counted. -/
def State.stripEngine (s : State) (e : Nat) : State :=
  let g := e / 4
  let x := s.engine e
  let lost := ((s.group g).unacked.filter (fun m => m.engine == e))
  let s1 := (s.setEngine e Engine.init).onBoard (fun b => b.inc (Pg.nol g) Cn.nolPartialDiscards x.partials.length)
  lost.foldl (fun s m => s.resend g m) (s1.syncLanes e)

/-- The session of a group closes (R306): in SERVICE a class B fault. -/
def State.closeSession (s : State) (g : Nat) : State :=
  let was := s.board.session g
  let lv := (s.sesLevel g, s.board.fld (Pg.nol g) F.nolSessionFeaturesFeatures)
  let s1 := (s.setGroup g { Group.init with last := if was = Ses.up then some lv else (s.group g).last }).onBoard (fun b =>
    (b.setSession g Ses.none).setFlds (Pg.nol g) [(F.nolStatusLevel, 0), (F.nolSessionFeaturesFeatures, 0)])
  if was = Ses.up && s1.inService then (s1.onBoard (fun b => b.raise (Pg.nol g) F.nolEventGroupDown)).reportModule else s1

/-- No engine of a group is left that could carry its session. -/
def State.allDown (s : State) (g : Nat) : Bool :=
  (List.range 4).all (fun i => s.board.engState (4 * g + i) == Eng.down || s.board.engState (4 * g + i) == Eng.dark ||
    s.board.engState (4 * g + i) == Eng.lightCheck)

/-- An engine goes DOWN (R308, R311) and sends RESET_NOTIFY (R360); the session closes with the last one. -/
def State.goDown (s : State) (e : Nat) : State :=
  let g := e / 4
  let s1 := ((s.notify (clockCode (.lane e))).setEng e Eng.down).onBoard (fun b =>
    ((b.inc (Pg.hb e) Cn.hbDowns 1).raise (Pg.hb e) F.hbEventDown).raise Pg.hbGlobal F.hbGlobalEventEngineDown)
  let s2 := s1.stripEngine e
  if s2.allDown g && decide (s2.board.session g ≠ Ses.none) then s2.closeSession g else s2

/-- ENGINE_DOWN (R311). -/
def execEngineDown (engine : Nat) (s : State) : Host.Outcome State Fault Refusal := done s (if s.engUp engine then s.goDown engine else s)

/-- The engines of a group. -/
def groupEngines (g : Nat) : List Nat := (List.range 4).map (· + 4 * g)

/-- Loss of light at one engine (R283). -/
def State.darken (s : State) (e : Nat) : State :=
  let v := s.board.engState e
  if v = Eng.dark then s
  else
    let s1 := s.onBoard (fun b => (b.setFld (Pg.hb e) F.hbStatusLightOk 0).raise (Pg.hb e) F.hbEventLightLoss)
    if v = Eng.training ∨ v = Eng.up ∨ v = Eng.loopback then s1.goDown e else s1

/-- LIGHT_LOSS (R283). -/
def execLightLoss (group : Nat) (s : State) : Host.Outcome State Fault Refusal := done s (eachIn (groupEngines group) State.darken s)

/-- Light returns to one engine: a LIGHT_CHECK or DOWN engine trains (R308); before TRAINING it stays in LIGHT_CHECK (R391). -/
def State.lighten (s : State) (e : Nat) : State :=
  let v := s.board.engState e
  if v = Eng.dark then s
  else
    let s1 := s.onBoard (fun b => b.setFld (Pg.hb e) F.hbStatusLightOk 1)
    if (v = Eng.lightCheck ∧ St.training ≤ s.board.st) ∨ v = Eng.down then s1.setEng e Eng.training else s1

/-- LIGHT_RETURN (R283). -/
def execLightReturn (group : Nat) (s : State) : Host.Outcome State Fault Refusal := done s (eachIn (groupEngines group) State.lighten s)

/-! ### Sessions (R302 to R306) -/

/-- The FEATURES that a group offers (R304). -/
def State.localFeatures (s : State) (g : Nat) : Nat :=
  let licensed := decide (s.store.variant = 0) && s.feature 3
  let role := s.board.groupRole g
  0x19 + (if role = 2 ∧ licensed then 0x2 else 0) + (if role = 1 ∨ (role = 2 ∧ licensed) then 0x4 else 0)

/-- The FEATURES mask of a level. -/
def levelMask (l : Nat) : Nat := if l = 1 then 0x10 else 0x1F

/-- An OFFER of group g (R302). -/
def State.offerBody (s : State) (g : Nat) : Bytes :=
  bodyOf 32 [(0, 1, 1), (1, 1, 3), (2, 1, s.board.groupRole g), (3, 1, g), (4, 4, s.localFeatures g), (8, 2, s.rack)]

/-- Opens a negotiation: message numbers start again and an OFFER goes out. -/
def State.sendOffer (s : State) (g : Nat) : State :=
  let x := s.group g
  let s1 := s.setGroup g { x with txGmsn := Group.init.txGmsn, unacked := [], waiting := [], sentAccept := none, gotAccept := none }
  (s1.onBoard (fun b => b.setSession g Ses.offered)).transmit g 1 0x01 (s.offerBody g)

/-- The LEVEL and FEATURES that two OFFERs give (R303). -/
def State.computed (s : State) (g : Nat) (o : Bytes) : Nat × Nat :=
  let l := min 3 (leAt o 1 1)
  (l, s.localFeatures g &&& leAt o 4 4 &&& levelMask l)

/-- The first cause of R303 that applies to a far OFFER; 0 for none. -/
def State.offerCause (s : State) (g : Nat) (o : Bytes) : Nat :=
  let lo := leAt o 0 1
  let hi := leAt o 1 1
  let l := (s.computed g o).1
  let role := s.board.groupRole g
  if lo = 0 ∨ 3 < lo ∨ hi = 0 ∨ 3 < hi then 1
  else if l < max 1 lo then 2
  else if role = 2 ∧ l = 1 ∧ ¬(s.store.variant = 0 ∧ s.feature 2 = true) then 3
  else if ¬((role = 2 ∧ leAt o 2 1 = 2) ∨ (role = 1 ∧ leAt o 2 1 = 3)) then 4
  else if role = 2 ∧ ¬(leAt o 8 2 % 4096 = s.board.fld Pg.hbGlobal (F.hbGlobalGroupCfgPeerRack g) ∧
      leAt o 3 1 = s.board.fld Pg.hbGlobal (F.hbGlobalGroupCfgPeerGroup g)) then 5
  else 0

/-- The negotiation of a group closes with a cause. -/
def State.refused (s : State) (g cause : Nat) : State :=
  let x := s.group g
  (s.setGroup g { x with offer := none, sentAccept := none, gotAccept := none }).onBoard (fun b =>
    (((b.setSession g Ses.refused).setFld (Pg.nol g) F.nolRefuseCauseCause cause).inc (Pg.nol g) Cn.nolRefusals 1).raise (Pg.nol g) F.nolEventRefused)

/-- This end refuses. -/
def State.sendRefuse (s : State) (g cause : Nat) : State :=
  ((s.transmit g 1 0x03 (bodyOf 32 [(0, 1, cause)])).onBoard (fun b => when (cause == 1) (fun b => b.inc (Pg.nol g) Cn.nolLevelErrors 1) b)).refused g cause

/-- A session that opens toward the parent measures its delay (R333). -/
def State.sessionOpened (s : State) (g : Nat) : State := if s.inService && s.board.groupRole g == 2 then s.askDelay else s

/-- The session comes UP when both ACCEPTs agree; one that differs from the closed session's is held (R303, R306). -/
def State.matchAccepts (s : State) (g : Nat) : State :=
  let x := s.group g
  match x.sentAccept, x.gotAccept with
  | some a, some b =>
    if a ≠ b then s.sendRefuse g 6
    else
      let s1 := (s.setGroup g { x with sentAccept := none, gotAccept := none, offer := none, last := none }).onBoard (fun bd =>
        (bd.setFlds (Pg.nol g) [(F.nolStatusLevel, a.1), (F.nolSessionFeaturesFeatures, a.2)]).inc (Pg.nol g) Cn.nolSessions 1)
      if x.last = none ∨ x.last = some a then (s1.onBoard (fun bd => bd.setSession g Ses.up)).sessionOpened g
      else (s1.onBoard (fun bd => (bd.setSession g Ses.held).raise (Pg.nol g) F.nolEventSessionChanged)).reportModule
  | _, _ => s

/-- Computes the session from the far OFFER that is at hand. -/
def State.negotiate (s : State) (g : Nat) : State :=
  match (s.group g).offer with
  | none => s
  | some o =>
    let cause := s.offerCause g o
    if cause ≠ 0 then s.sendRefuse g cause
    else
      let r := s.computed g o
      let s1 := s.transmit g 1 0x02 (bodyOf 32 [(0, 1, r.1), (4, 4, r.2)])
      (s1.setGroup g { s1.group g with sentAccept := some r, offer := none }).matchAccepts g

/-- An OFFER arrives: it restarts the far end's message numbers, and its fields are shown. In a group that host software must
reopen it waits for REOFFER; on a group with no negotiation open, or with a session, this end sends its own OFFER first. -/
def State.offerIn (s : State) (g : Nat) (o : Bytes) : State :=
  let x := s.group g
  let ses := s.board.session g
  let s1 := (s.setGroup g { x with offer := some o, rxLow := putAt Group.init.rxLow 1 1, rxSeen := Group.init.rxSeen }).onBoard (fun b =>
    b.setFlds (Pg.nol g) [(F.nolPeerLevelsLowest, leAt o 0 1), (F.nolPeerLevelsHighest, leAt o 1 1), (F.nolPeerFeaturesFeatures, leAt o 4 4),
      (F.nolPeerIdRack, leAt o 8 2), (F.nolPeerIdGroup, leAt o 3 1), (F.nolPeerIdRole, leAt o 2 1)])
  if ses = Ses.refused ∨ ses = Ses.held then s1
  else if ses = Ses.offered ∧ x.sentAccept = none then s1.negotiate g
  else (if s1.board.groupRole g = 0 then s1 else s1.sendOffer g).negotiate g

/-- OFFER (R303). -/
def execOffer (group : Nat) (body : Bytes) (s : State) : Host.Outcome State Fault Refusal :=
  done s (s.arrives group 1 (fun s => s.offerIn group body))

/-- An ACCEPT arrives. -/
def State.acceptIn (s : State) (g : Nat) (body : Bytes) : State :=
  if s.board.session g = Ses.offered then
    (s.setGroup g { s.group g with gotAccept := some (leAt body 0 1, leAt body 4 4) }).matchAccepts g
  else s

/-- ACCEPT (R303). -/
def execAccept (group : Nat) (body : Bytes) (s : State) : Host.Outcome State Fault Refusal :=
  done s (s.arrives group 1 (fun s => s.acceptIn group body))

/-- A REFUSE arrives: it closes the negotiation. -/
def State.refuseIn (s : State) (g : Nat) (body : Bytes) : State :=
  if s.board.session g = Ses.offered then s.refused g (leAt body 0 1) else s

/-- REFUSE (R303). -/
def execRefuse (group : Nat) (body : Bytes) (s : State) : Host.Outcome State Fault Refusal :=
  done s (s.arrives group 1 (fun s => s.refuseIn group body))

/-- CLOSE (R306). -/
def execClose (group : Nat) (s : State) : Host.Outcome State Fault Refusal :=
  done s (s.arrives group 1 (fun s => if s.board.session group = Ses.none then s else s.closeSession group))

/-- NOL.CONTROL.REOFFER: a new OFFER; the closed session no longer binds (R303, R306). -/
def State.reofferGroup (s : State) (g : Nat) : State :=
  if (s.upEngines g).isEmpty then s
  else if s.board.groupRole g = 0 then
    if s.board.session g = Ses.none then s
    else (s.transmit g 1 0x04 (bodyOf 32 [])).closeSession g
  else ((s.setGroup g { s.group g with last := none }).sendOffer g).negotiate g

/-! ### Training (R308) -/

/-- The lanes of a mask, lowest first, without the bad ones. -/
def goodLanes (mask bad : Nat) : List Nat := (bitList 18 mask).filter (fun l => !bad.testBit l)

/-- ENGINE_UP (R308): with at least 16 good lanes a direction, the 16 lowest are active and the others spares; the first engine of a
group opens the negotiation (R302). A DOWN engine with light has retrained by itself. -/
def State.trained (s : State) (e txGood rxGood : Nat) (half : Bool) : State :=
  let g := e / 4
  let v := s.board.engState e
  let tx := goodLanes txGood (s.board.fld (Pg.hb e) F.hbTxBadLanes)
  let rx := goodLanes rxGood (s.board.fld (Pg.hb e) F.hbRxBadLanes)
  let may := v == Eng.training || (v == Eng.down && s.board.flag (Pg.hb e) F.hbStatusLightOk)
  if !may || !s.engineUsable e || decide (tx.length < 16) || decide (rx.length < 16) then s
  else
    let first := (s.upEngines g).isEmpty
    let x := { Engine.init with txMap := tx.take 16, rxMap := rx.take 16, txSpare := tx.drop 16, rxSpare := rx.drop 16 }
    let s0 := { s with clk := { s.clk with inReset := s.clk.inReset.erase (clockCode (.lane e)), stopped := s.clk.stopped.erase (clockCode (.lane e)) } }
    let s1 := (((s0.setEngine e x).setEng e Eng.up).syncLanes e).onBoard (fun b =>
      b.setFlds (Pg.hb e) [(F.hbStatusRateHalf, b2n half), (F.hbTxBadLanes, 2 ^ 18 - 1 - maskOfList tx), (F.hbRxBadLanes, 2 ^ 18 - 1 - maskOfList rx)])
    if first && decide (s1.board.session g = Ses.none) && !(s1.board.groupRole g == 0) then s1.sendOffer g else s1

/-- ENGINE_UP (R308). -/
def execEngineUp (engine txGood rxGood : Nat) (half : Bool) (s : State) : Host.Outcome State Fault Refusal :=
  done s (s.trained engine txGood rxGood half)

/-! ### Retraining a lane (R309, R310) -/

/-- A lane swap begins: shown and counted. -/
def State.showSwap (s : State) (e lane dir : Nat) : State :=
  s.onBoard (fun b => ((b.inc (Pg.hb e) Cn.hbRetrains 1).setFlds (Pg.hb e)
    [(F.hbLastRetrainLane, lane), (F.hbLastRetrainDir, dir), (F.hbLastRetrainResult, 0)]).raise (Pg.hb e) F.hbEventRetrain)

/-- The receiver asks for its lowest selected lane to move to its lowest trained spare; without one the engine goes DOWN. -/
def State.askSwap (s : State) (e : Nat) : State :=
  let x := s.engine e
  match x.rxRetrain, x.rxSpare with
  | [], _ => s
  | _ :: _, [] => s.goDown e
  | l :: _, y :: _ =>
    ((s.setEngine e { x with swapped := true, replayFails := 0 }).showSwap e l 1).onBoard (fun b => b.emit (.swap e l y))

/-- A receive lane is selected: one retrains at a time, the lower of those that wait first. -/
def State.selectLane (s : State) (e lane : Nat) : State :=
  let x := s.engine e
  if !s.engUp e || !x.rxMap.contains lane || x.rxRetrain.contains lane then s
  else
    match x.rxRetrain with
    | [] => (s.setEngine e { x with rxRetrain := [lane] }).askSwap e
    | l :: rest => s.setEngine e { x with rxRetrain := l :: addSorted rest lane }

/-- LANE_RETRAIN (R310). -/
def execLaneRetrain (engine lane : Nat) (s : State) : Host.Outcome State Fault Refusal := done s (s.selectLane engine lane)

/-- RING_UNLOCK (R284): the lane of that ring is selected. -/
def execRingUnlock (engine lane : Nat) (s : State) : Host.Outcome State Fault Refusal :=
  done s (if s.board.engState engine = Eng.dark then s
    else (s.onBoard (fun b => b.raise (Pg.hb engine) F.hbEventRingUnlock)).selectLane engine lane)

/-- Moves a stripe from lane x to lane y. -/
def moveLane (m : List Nat) (x y : Nat) : List Nat := m.map (fun l => if l = x then y else l)

/-- LANE_SWAP_REQUEST (R310): the sender moves the stripe at its next marker and raises the map version. -/
def execLaneSwapRequest (engine x y : Nat) (s : State) : Host.Outcome State Fault Refusal :=
  done s (
    let g := s.engine engine
    if !s.engUp engine || !g.txMap.contains x || !g.txSpare.contains y then s
    else
      ((s.setEngine engine { g with txMap := moveLane g.txMap x y, txSpare := g.txSpare.erase y, txVersion := (g.txVersion + 1) % 256,
                                    txRetrain := addSorted (g.txRetrain.erase x) x }).showSwap engine x 0).syncLanes engine)

/-- NEW_MAP_VERSION (R310): the receiver applies the same lane map from that marker. -/
def execNewMapVersion (engine version : Nat) (s : State) : Host.Outcome State Fault Refusal :=
  done s (
    let g := s.engine engine
    if !s.engUp engine || decide (version % 256 = g.rxVersion) then s
    else
      let g1 := { g with rxVersion := version % 256 }
      match g.rxRetrain, g.rxSpare with
      | x :: _, y :: rest =>
        if g.rxMap.contains x then (s.setEngine engine { g1 with rxMap := moveLane g.rxMap x y, rxSpare := rest }).syncLanes engine
        else s.setEngine engine g1
      | _, _ => s.setEngine engine g1)

/-- LANE_RETRAIN_DONE (R310): the lane rejoins as a spare; after three failed attempts it is bad and enters the field-defect log. -/
def execLaneRetrainDone (engine : Nat) (rx : Bool) (lane : Nat) (ok : Bool) (s : State) : Host.Outcome State Fault Refusal :=
  done s (
    let g := s.engine engine
    let key := b2n rx * 18 + lane
    let n := Tbl.get (fun _ => 0) g.attempts key + 1
    let running := if rx then decide (g.rxRetrain.head? = some lane) && !g.rxMap.contains lane else g.txRetrain.contains lane
    if !s.engUp engine || !running then s
    else if !ok && n < 3 then s.setEngine engine { g with attempts := Tbl.set (fun _ => 0) g.attempts key n }
    else
      let spare := fun (l : List Nat) => if ok then addSorted l lane else l
      let g1 := { g with attempts := Tbl.set (fun _ => 0) g.attempts key 0 }
      let g2 := if rx then { g1 with rxRetrain := g1.rxRetrain.drop 1, rxSpare := spare g1.rxSpare }
        else { g1 with txRetrain := g1.txRetrain.erase lane, txSpare := spare g1.txSpare }
      let s1 := ((s.setEngine engine g2).syncLanes engine).onBoard (fun b => b.setFlds (Pg.hb engine)
        [(F.hbLastRetrainLane, lane), (F.hbLastRetrainDir, b2n rx), (F.hbLastRetrainResult, if ok then 1 else 2)])
      let s2 := if ok then s1
        else
          (s1.onBoard (fun b =>
            let f := if rx then F.hbRxBadLanes else F.hbTxBadLanes
            (b.setFld (Pg.hb engine) f (setBit (b.fld (Pg.hb engine) f) lane)).raise (Pg.hb engine) F.hbEventRetrainFail)).appendDefect
            ⟨8, 4, engine, b2n rx * 256 + lane⟩
      if rx then s2.askSwap engine else s2)

/-! ### Replay (R294, R296) -/

/-- REPLAY_REQ (R294). -/
def execReplayReq (engine ack : Nat) (s : State) : Host.Outcome State Fault Refusal := done s (if s.engUp engine then s.replayFrom engine ack else s)

/-- ACK_TIMEOUT (R294): from the oldest uncovered flit. -/
def execAckTimeout (engine : Nat) (s : State) : Host.Outcome State Fault Refusal :=
  done s (match s.engUp engine, (s.engine engine).replay with
    | true, p :: _ => (s.onBoard (fun b => b.inc (Pg.hb engine) Cn.hbAckTimeouts 1)).replayFrom engine p.1
    | _, _ => s)

/-- REPLAY_FAIL (R296): counted, and REPLAY_REQ is set again (R293); eight in a row after a swap take the engine DOWN (R310). The
lane that eight in a row select comes with LANE_RETRAIN. -/
def execReplayFail (engine : Nat) (s : State) : Host.Outcome State Fault Refusal :=
  done s (
    let x := s.engine engine
    if !s.engUp engine || !x.asked then s
    else
      let n := x.replayFails + 1
      let s1 := (s.setEngine engine { x with replayFails := n }).onBoard (fun b => b.inc (Pg.hb engine) Cn.hbReplayFails 1)
      if x.swapped && decide (n ≥ 8) then s1.goDown engine else s1.sendIdle engine true)

/-! ### Loopbacks (R312) -/

/-- An engine enters LOOPBACK; the flits it then generates for itself are counted, how many is open (notes/assumptions/2.md). -/
def State.enterLoop (s : State) (e : Nat) : State :=
  let s1 := (s.setEng e Eng.loopback).stripEngine e
  let (k, s2) := s1.freeNat
  let (j, s3) := s2.freeNat
  let (i, s4) := s3.freeNat
  s4.onBoard (fun b => ((b.inc (Pg.hb e) Cn.hbTxFlits k).inc (Pg.hb e) Cn.hbRxFlits j).inc (Pg.hb e) Cn.hbRxCrcFails i)

/-- An engine leaves LOOPBACK and trains. -/
def State.leaveLoop (s : State) (e : Nat) : State := if s.board.engState e = Eng.loopback then s.setEng e Eng.training else s

/-- What a write to HB.CONTROL does beyond storing its fields: LOOPBACK 1 to 3 takes an UP engine into LOOPBACK; FAR_LOOP asks the far
end on a session with feature 4, and is cleared where there is none; clearing both ends a loopback. -/
def State.loopWrite (s : State) (e oldLoop oldFar : Nat) : State :=
  let g := e / 4
  let l := s.board.fld (Pg.hb e) F.hbControlLoopback
  let far := s.board.fld (Pg.hb e) F.hbControlFarLoop
  let s1 := if l ≠ 0 ∧ oldLoop = 0 ∧ s.engUp e then s.enterLoop e else s
  let s2 := if far = 1 ∧ oldFar = 0 then
      (if s1.sessionUp g && s1.sesFeature g 4 && s1.engUp e then s1.transmit g 1 0x05 (bodyOf 32 [(0, 1, 1), (2, 1, e % 4)])
       else if l = 0 then s1.onBoard (fun b => b.setFld (Pg.hb e) F.hbControlFarLoop 0) else s1)
    else if far = 0 ∧ oldFar = 1 then s1.transmit g 1 0x05 (bodyOf 32 [(0, 1, 0), (2, 1, e % 4)])
    else s1
  if l = 0 ∧ far = 0 ∧ (oldLoop ≠ 0 ∨ oldFar ≠ 0) then s2.leaveLoop e else s2

/-- A FAR_LOOP request or reply arrives. -/
def State.farLoopIn (s : State) (g : Nat) (body : Bytes) : State :=
  let k := leAt body 0 1
  let e := 4 * g + leAt body 2 1 % 4
  let waits := fun (i : Nat) => s.board.flag (Pg.hb i) F.hbControlFarLoop && s.engUp i
  if k = 1 then
    let reason := if s.inService then 1 else if !s.sesFeature g 4 then 2 else 0
    if reason ≠ 0 then s.transmit g 1 0x05 (bodyOf 32 [(0, 1, 2), (1, 1, reason)])
    else
      let s1 := s.transmit g 1 0x05 (bodyOf 32 [(0, 1, 3)])
      if s1.engUp e then (s1.setEng e Eng.loopback).stripEngine e else s1
  else if k = 0 then (s.transmit g 1 0x05 (bodyOf 32 [(0, 1, 3)])).leaveLoop e
  else
    match (groupEngines g).find? waits with
    | none => s
    | some i => if k = 3 then s.enterLoop i else s.onBoard (fun b => b.setFld (Pg.hb i) F.hbControlFarLoop 0)

/-- FAR_LOOP (R312). -/
def execFarLoop (group : Nat) (body : Bytes) (s : State) : Host.Outcome State Fault Refusal :=
  done s (s.arrives group 1 (fun s => s.farLoopIn group body))

/-! ### Tier 3 reads (R495) -/

/-- Sends an open RREAD again, or after four requests completes the read with an address error. -/
def State.againRRead (s : State) (r : RRead) : State :=
  if r.attempt < 4 then
    let q := { r with attempt := r.attempt + 1 }
    ({ s with net := { s.net with rreads := s.net.rreads.map (fun (x : RRead) => if x.tag = r.tag then q else x) } }).sendRRead q
  else ({ s with net := { s.net with rreads := s.net.rreads.filter (fun (x : RRead) => decide (x.tag ≠ r.tag)) } }).completeRead r.core r.tag 2

/-- Keeps the bytes that an RDATA has brought. -/
def State.keepRemote (s : State) (group a : Nat) (bs : Bytes) : State :=
  { s with tier := { s.tier with
      remote := ((bs.zip (List.range bs.length)).foldl (fun m p => Tbl.set (fun _ => (none : Option Byte)) m (remoteKey group (a + p.2)) (some p.1)) s.tier.remote) } }

/-- An RDATA arrives: the first of STATUS 0 that matches completes the read; STATUS 1 or 2 for the open ATTEMPT sends it again; any
other is discarded. -/
def State.rdataIn (s : State) (body : Bytes) : State :=
  let tag := leAt body 0 2
  let st := leAt body 3 1
  match s.net.rreads.find? (fun r => r.tag == tag && r.attempt == leAt body 2 1) with
  | none => s
  | some r =>
    if st = 1 ∨ st = 2 then s.againRRead r
    else if st = 0 ∧ 64 * (leAt body 4 1 + 1) = r.len ∧ body.length = 16 + r.len then
      (({ s with net := { s.net with rreads := s.net.rreads.filter (fun (x : RRead) => decide (x.tag ≠ tag)) } }).keepRemote (r.remote / 2 ^ 28)
        (r.remote % 2 ^ 28 * Lay.page + r.offset) (body.drop 16)).completeRead r.core tag 0
    else s

/-- RDATA (R495). -/
def execRdata (group : Nat) (body : Bytes) (s : State) : Host.Outcome State Fault Refusal :=
  done s (s.arrives group 2 (fun s => s.rdataIn body))

/-- RREAD_TIMEOUT (R495). -/
def execRreadTimeout (tag : Nat) (s : State) : Host.Outcome State Fault Refusal :=
  done s (match s.net.rreads.find? (fun r => r.tag == tag) with
    | some r => s.againRRead r
    | none => s)

end Sys2Proof.Machine
end

