-- ==== Sys2Proof/Machine/Ecdsa.lean ====
section
/-! DEFINITION. ECDSA P-384 verification with SHA-384 (FIPS 186-5), which R185 and R471 name for hoods, licences and log pages. -/
namespace Sys2Proof.Machine

namespace P384
/-- The prime of the field. -/
def p : Nat := 2 ^ 384 - 2 ^ 128 - 2 ^ 96 + 2 ^ 32 - 1
/-- The order of the base point. -/
def n : Nat := 0xffffffffffffffffffffffffffffffffffffffffffffffffc7634d81f4372ddf581a0db248b0a77aecec196accc52973
/-- The constant b of y² = x³ − 3x + b. -/
def b : Nat := 0xb3312fa7e23ee7e4988e056be3f82d19181d9c6efe8141120314088f5013875ac656398d8a2ed19d2a85c8edd3ec2aef
/-- The base point. -/
def gx : Nat := 0xaa87ca22be8b05378eb1c71ef320ad746e1d3b628ba79b9859f741e082542a385502f25dbf55296c3a545e3872760ab7
def gy : Nat := 0x3617de4a96262c6f5d9e98bf9292dc29f8f41dbd289a147ce9da3113b5f0b8c00a60b1ce1d7e819d7a431d7c90ea0e5f
end P384

/-- Difference modulo m of two reduced numbers. -/
def subMod (m a b : Nat) : Nat := (a + m - b) % m

/-- `a ^ e` modulo m, over the low `k` bits of e. -/
def powMod (m : Nat) : Nat → Nat → Nat → Nat → Nat
  | 0, _, _, acc => acc
  | k + 1, a, e, acc => powMod m k (a * a % m) (e / 2) (if e % 2 = 1 then acc * a % m else acc)

/-- The inverse modulo a prime m. -/
def invMod (m a : Nat) : Nat := powMod m 384 (a % m) (m - 2) 1

/-- A point in Jacobian coordinates; z = 0 is the point at infinity. -/
structure JPoint where
  x : Nat
  y : Nat
  z : Nat
  deriving DecidableEq, Repr

/-- Twice a point of P-384 (a = −3). -/
def JPoint.double (q : JPoint) : JPoint :=
  let m := P384.p
  if q.z = 0 ∨ q.y = 0 then ⟨1, 1, 0⟩
  else
    let zz := q.z * q.z % m
    let yy := q.y * q.y % m
    let s := 4 * q.x * yy % m
    let t := 3 * subMod m q.x zz * (q.x + zz) % m
    let x := subMod m (t * t % m) (2 * s % m)
    ⟨x, subMod m (t * subMod m s x % m) (8 * yy * yy % m), 2 * q.y * q.z % m⟩

/-- The sum of two points of P-384. -/
def JPoint.add (q r : JPoint) : JPoint :=
  let m := P384.p
  if q.z = 0 then r
  else if r.z = 0 then q
  else
    let z1 := q.z * q.z % m
    let z2 := r.z * r.z % m
    let u1 := q.x * z2 % m
    let u2 := r.x * z1 % m
    let s1 := q.y * z2 * r.z % m
    let s2 := r.y * z1 * q.z % m
    if u1 = u2 then (if s1 = s2 then q.double else ⟨1, 1, 0⟩)
    else
      let h := subMod m u2 u1
      let w := subMod m s2 s1
      let h2 := h * h % m
      let h3 := h2 * h % m
      let v := u1 * h2 % m
      let x := subMod m (subMod m (w * w % m) h3) (2 * v % m)
      ⟨x, subMod m (w * subMod m v x % m) (s1 * h3 % m), h * q.z * r.z % m⟩

/-- k times a point, over the low `n` bits of k, highest first. -/
def JPoint.mul (q : JPoint) (k : Nat) : Nat → JPoint
  | 0 => ⟨1, 1, 0⟩
  | n + 1 => 
    let h := (JPoint.mul q (k / 2) n).double
    if k % 2 = 1 then h.add q else h

/-- A public key: x and y, 48 B big-endian each, of a point on the curve. -/
def keyPoint (key : Bytes) : Option JPoint :=
  let x := beNat (slice key 0 48)
  let y := beNat (slice key 48 48)
  let m := P384.p
  if key.length = 96 ∧ x < m ∧ y < m ∧ y * y % m = (x * x * x + (m - 3) * x + P384.b) % m then some ⟨x, y, 1⟩ else none

/-- Does the signature r ‖ s verify the message under the key (FIPS 186-5, section 6.4.2)? -/
def ecdsaOk (key msg sig : Bytes) : Bool :=
  let r := beNat (slice sig 0 48)
  let s := beNat (slice sig 48 48)
  let n := P384.n
  match keyPoint key with
  | none => false
  | some q =>
    if r = 0 ∨ n ≤ r ∨ s = 0 ∨ n ≤ s then false
    else
      let e := beNat (sha384 msg)
      let w := invMod n s
      let g : JPoint := ⟨P384.gx, P384.gy, 1⟩
      let t := (g.mul (e * w % n) 384).add (q.mul (r * w % n) 384)
      if t.z = 0 then false
      else
        let zi := invMod P384.p t.z
        decide (t.x * zi * zi % P384.p % n = r)

end Sys2Proof.Machine
end

