-- ==== Sys2Proof/Machine/Memory.lean ====
section
/-! DEFINITION. Memory commands, hoods, the migration engine, errors of slices and DRAM, pounce and the shelf
(06_memory_tiers: R172 to R201, R496; 05_sniash: R156, R157). -/
namespace Sys2Proof.Machine

/-! ### What the MEM page shows -/

/-- Keeps MEM.STATUS. -/
def State.syncMem (s : State) : State :=
  s.onBoard (fun b => b.setFlds Pg.mem [(F.memStatusCmdBusy, b2n s.tier.cmdRun.isSome), (F.memStatusCmdQueued, s.tier.cmdQ.length),
    (F.memStatusMigQueued, s.tier.migQ.length)])

/-- Keeps SHF.STATUS.LOADING. -/
def State.syncLoads (s : State) : State := s.onBoard (fun b => b.setFld Pg.shf F.shfStatusLoading (b2n !s.tier.loads.isEmpty))

/-- A command completes: CMD_STATUS, CMD_TAG and the events (R496). -/
def State.finishCmd (s : State) (op cause tag : Nat) : State :=
  ({ s with tier := { s.tier with cmdRun := none, cmdFrames := [] } }.onBoard (fun b =>
    let b1 := b.setFlds Pg.mem [(F.memCmdStatusOp, op), (F.memCmdStatusCause, cause), (F.memCmdTagTag, tag)]
    let b2 := b1.raise Pg.mem F.memEventCmdDone
    if cause = 0 then b2 else b2.raise Pg.mem F.memEventCmdFailed)).syncMem

/-- The tag that CMD_TAG shows: ARG3 of ALLOC, FREE and INSTALL_HOOD, ARG0[31:8] of LOAD_HOOD (R188); the spec gives the other
commands none, so what it reads then is free (notes/assumptions/21.md). -/
def State.finish (s : State) (c : MemCmd) (cause : Nat) : State :=
  if c.op = 1 ∨ c.op = 2 ∨ c.op = 5 then s.finishCmd c.op cause c.a3
  else if c.op = 3 then s.finishCmd c.op cause (c.a0 / 256)
  else
    let (k, s1) := s.freeNat
    s1.finishCmd c.op cause k

/-! ### Pages and frames -/

/-- The pages of a command's range. -/
def cmdPages (c : MemCmd) : List Nat := (List.range c.a2).map (· + c.a1)

/-- Does the range lie in the context's paged slice (R173, R188)? -/
def State.cmdInSlice (s : State) (n first count : Nat) : Bool :=
  decide (s.slice0 n ≤ first) && decide (first + count ≤ s.slice0 n + s.sliceN n) && (count == 0 || (isPaged first && isPaged (first + count - 1)))

/-- A change of the entry of page p: the frames that the new entry no longer names become free at the second boundary (R177). -/
def State.swapEntry (s : State) (p : Nat) (e : PageEntry) : State :=
  let o := s.tier.entry p
  let keep := fun (t f : Nat) => (e.valid && e.tier == t && e.frame == f) || (e.valid && e.homeValid && e.homeTier == t && e.homeFrame == f)
  let old := if !o.valid then [] else (o.tier, o.frame) :: (if o.homeValid then [(o.homeTier, o.homeFrame)] else [])
  let s1 : State := { s with tier := s.tier.setEntry p e }
  (old.filter (fun x => !keep x.1 x.2)).foldl (fun s x => s.freeLater x.1 x.2) s1

/-- One boundary passes for the frames that wait to become free (R177). -/
def State.releaseFrames (s : State) : State :=
  let l := s.tier.freeing.map (fun f => { f with left := f.left - 1 })
  (l.filter (fun f => f.left = 0)).foldl (fun s f => s.markFrame f.tier f.frame false)
    { s with tier := { s.tier with freeing := l.filter (fun f => f.left ≠ 0) } }

/-- The changes that waited for the boundary (R177, R198). -/
def State.applyChanges (s : State) : State :=
  s.tier.changes.foldl (fun s c =>
    (s.swapEntry c.page c.entry).onBoard (fun b => if c.moved then b.inc Pg.mem Cn.memMigrations 1 else b))
    { s with tier := { s.tier with changes := [] } }

/-- FREE abandons the migration of its pages: what waits, what is in flight and what was to switch (R188). -/
def State.abandon (s : State) (ps : List Nat) : State :=
  let fly := s.tier.fly.filter (fun f => ps.contains f.page)
  let chg := s.tier.changes.filter (fun c => ps.contains c.page)
  let s1 : State := { s with tier := { s.tier with
    fly := s.tier.fly.filter (fun f => !ps.contains f.page)
    changes := s.tier.changes.filter (fun c => !ps.contains c.page)
    migQ := s.tier.migQ.map (fun q => { q with pages := q.pages.filter (fun p => !ps.contains p) }) } }
  let s2 := fly.foldl (fun s f => if f.frame = (s.tier.entry f.page).frame ∧ f.tier = (s.tier.entry f.page).tier then s else
    s.markFrame f.tier f.frame false) s1
  chg.foldl (fun s c =>
    let o := s.tier.entry c.page
    if c.entry.tier = o.tier ∧ c.entry.frame = o.frame then s
    else if o.homeValid ∧ c.entry.tier = o.homeTier ∧ c.entry.frame = o.homeFrame then s
    else s.markFrame c.entry.tier c.entry.frame false) s2

/-! ### Hoods (R184 to R187) -/

/-- Pages of the shelf that hold hoods: 30.0 TB in shelf pages of 2 MiB (R184). -/
def shelfPages : Nat := 30000000000000 / Lay.page

/-- Manifest fields (R185). -/
def Hood.id (h : Hood) : Nat := leAt h.image 8 8
def Hood.level (h : Hood) : Nat := leAt h.image 4 1
def Hood.bytes (h : Hood) : Nat := leAt h.image 16 8
def Hood.objects (h : Hood) : Nat := leAt h.image 24 4
/-- Chunks, and payload pages: ⌈BYTES ÷ 2 MiB⌉. -/
def Hood.chunks (h : Hood) : Nat := ceilDiv h.bytes Lay.page
/-- The padded chunk list, and where the payload starts. -/
def Hood.listLen (h : Hood) : Nat := ceilDiv (48 * h.chunks) 4096 * 4096
def Hood.payloadAt (h : Hood) : Nat := 4096 + h.listLen
def Hood.payload (h : Hood) (off n : Nat) : Bytes := slice h.image (h.payloadAt + off) n
/-- Shelf pages that the image takes. -/
def Hood.pages (h : Hood) : Nat := ceilDiv h.image.length Lay.page
/-- Object k: its page offset in the payload and its page count (layout PRESUMED, notes/assumptions/22.md). -/
def Hood.object (h : Hood) (k : Nat) : Nat × Nat := (leAt h.image (32 + 16 * k) 4, leAt h.image (36 + 16 * k) 4)

/-- A key slot that holds a key and is not revoked (R473). -/
def State.keyEnabled (s : State) (n : Nat) : Bool :=
  match s.store.keys[n]? with
  | some k => !k.key.isEmpty && !k.revoked
  | none => false

/-- The key of a slot. -/
def State.key (s : State) (n : Nat) : Bytes := ((s.store.keys[n]?).map KeySlot.key).getD []

/-- The signature of a hood verifies under the enabled hood slot that it names (R185, R471). -/
def State.hoodSigned (s : State) (h : Hood) : Bool :=
  let slot := leAt h.image 4064 1
  decide (slot ≤ 3) && s.keyEnabled slot && ecdsaOk (s.key slot) (slice h.image 0 3968) (slice h.image 3968 96)

/-- The manifest is well formed, its signature verifies and the chunk list matches CHUNK_ROOT (R185, R186 step 1). -/
def State.hoodGood (s : State) (h : Hood) : Bool :=
  decide (leAt h.image 0 4 = 0x484F4F44) && decide (1 ≤ h.level) && decide (h.level ≤ 3) && decide (1 ≤ h.objects) && decide (h.objects ≤ 222) &&
    s.hoodSigned h && decide (sha384 (slice h.image 4096 h.listLen) = slice h.image 3584 48)

/-- Every chunk matches its hash (R186 step 3). -/
def Hood.chunksGood (h : Hood) : Bool :=
  (List.range h.chunks).all (fun i =>
    decide (sha384 (h.payload (i * Lay.page) (min Lay.page (h.bytes - i * Lay.page))) = slice h.image (4096 + 48 * i) 48))

/-- The hood with an identifier. -/
def State.hoodOf (s : State) (id : Nat) : Option Hood := s.tier.hoods.find? (fun h => h.id == id)

/-- A load completion record (R139). -/
def State.loadRec (s : State) (n tag cause aux : Nat) : State :=
  s.pushRec n { Rec.blank with type := 3, ctx := n, tag := tag, cause := cause, aux := aux, gtcStart := s.board.gtc, gtcEnd := s.board.gtc }

/-- A failed signature or chunk check (R186). -/
def State.hoodFails (s : State) (n tag : Nat) : State :=
  (s.loadRec n tag Cause.hoodInvalid 0).onBoard (fun b => (b.inc Pg.shf Cn.shfHoodFails 1).raise Pg.shf F.shfEventHoodInvalid)

/-- A load that neither tier 0 nor tier 1 has room for (R191). -/
def State.loadFull (s : State) (n tag : Nat) : State :=
  (s.loadRec n tag Cause.tierFull 0).onBoard (fun b => b.raise Pg.mem F.memEventTierFull)

/-- The context enters LOADING; its partition schedules its other contexts (R157). -/
def State.enterLoading (s : State) (l : Load) : State :=
  let s1 := ((s.leave l.ctx).updCtx l.ctx (fun c => { c with loadPending := false })).setCstate l.ctx Cs.loading
  { s1 with tier := { s1.tier with loads := s1.tier.loads ++ [l] } }.syncLoads

/-- T1_PASS_CYCLES and T0_EQUIV_CYCLES for a number of bytes in tier 1 (R191). -/
def State.t1Pass (s : State) (b1 : Nat) : Nat :=
  ceilDiv (b1 * s.board.fld Pg.clk F.clkMclkStateCurrent)
    (20 * s.board.liveChannels * s.board.fld Pg.fabSpine F.fabSpineSplitRead)
def t0Equiv (b1 : Nat) : Nat := ceilDiv b1 (576 * 512)

/-- The fit report (R191). -/
def State.fitReport (s : State) (n p0 p1 : Nat) : State :=
  s.onBoard (fun b => b.setFlds Pg.mem [(F.memFitCtxCtx, n), (F.memFitT0PagesPages, p0), (F.memFitT1PagesPages, p1),
    (F.memFitT1PassCycles, s.t1Pass (p1 * Lay.page)), (F.memFitT0EquivCycles, t0Equiv (p1 * Lay.page))])

/-- Places the pages of a load in object order: tier 0 while it has free frames, then tier 1; `none` when neither has room.
`lvl` is 1 once tier 0 has run out; `n0` and `n1` count the pages. -/
def State.placePages (l : Load) : List (Nat × Nat) → Nat → Nat → Nat → State → Option (State × Nat × Nat)
  | [], _, n0, n1, s => some (s, n0, n1)
  | (obj, pg) :: rest, lvl, n0, n1, s =>
    let e := fun (t f : Nat) => { PageEntry.none with
      tier := t, valid := true, sealed := true, homeValid := true, ctx := l.ctx, frame := f, homeTier := 2, object := obj,
      homeFrame := l.hood.shelfPage + pg }
    let put := fun (s : State) (t f : Nat) =>
      (s.swapEntry (l.firstPage + pg) (e t f)).wrBytes ((l.firstPage + pg) * Lay.page) (l.hood.payload (pg * Lay.page) Lay.page)
    match (if lvl = 0 then s.takeFrame 0 else none) with
    | some (f, s1) => State.placePages l rest 0 (n0 + 1) n1 (put s1 0 f)
    | none =>
      match s.takeFrame 1 with
      | some (f, s1) => State.placePages l rest 1 n0 (n1 + 1) (put s1 1 f)
      | none => none

/-- The pages of a hood in object order, each with its object's number (R185, R191). -/
def Hood.placement (h : Hood) (firstObj : Nat) : List (Nat × Nat) :=
  (List.range h.objects).flatMap (fun k =>
    ((List.range (h.object k).2).map (fun i => (firstObj + k, (h.object k).1 + i))).filter (fun p => decide (p.2 < h.chunks)))

/-- A load ends (R186, R191): its pages are mapped, sealed and filled, or it fails. -/
def State.endLoad (s : State) (l : Load) : State :=
  if s.cstate l.ctx ≠ Cs.loading then s
  else
    let s1 := (s.setCstate l.ctx Cs.ready).onBoard (fun b => b.inc Pg.shf Cn.shfReadBytes l.hood.image.length)
    if !l.hood.chunksGood then s1.hoodFails l.ctx l.tag
    else
      match State.placePages l (l.hood.placement s1.tier.nextObject) 0 0 0 s1 with
      | none => s1.loadFull l.ctx l.tag
      | some (s2, n0, n1) =>
        let s3 := { s2 with tier := { s2.tier with nextObject := s2.tier.nextObject + l.hood.objects } }
        ((s3.fitReport l.ctx n0 n1).loadRec l.ctx l.tag 0 n1).onBoard (fun b => b.inc Pg.shf Cn.shfHoodsLoaded 1)

/-- SHCLK stops: hood loads in progress end with HOOD_INVALID (R359). -/
def State.failLoads (s : State) : State :=
  s.tier.loads.foldl (fun s l => if s.cstate l.ctx ≠ Cs.loading then s else (s.setCstate l.ctx Cs.ready).hoodFails l.ctx l.tag)
    ({ s with tier := { s.tier with loads := [] } }.syncLoads)

/-- LOAD_COMPLETE (R186): the oldest load in progress ends. -/
def execLoadComplete (s : State) : Host.Outcome State Fault Refusal :=
  done s (
    match s.tier.loads with
    | [] => s
    | l :: rest => ({ s with tier := { s.tier with loads := rest } }.syncLoads).endLoad l)

/-- Why INSTALL_HOOD and ERASE_HOOD are refused: R187, and a shelf whose clock has stopped. -/
def State.shelfLocked (s : State) : Bool :=
  !s.feature 1 || s.board.flag Pg.pwr F.pwrGlobalStatusHoldupGaugeMismatch || s.clk.stopped.contains (clockCode .shclk)

/-- SHELF_REFUSED (R187). -/
def State.shelfRefuse (s : State) (c : MemCmd) : State := (s.finish c Cause.shelfRefused).onBoard (fun b => b.raise Pg.shf F.shfEventShelfRefused)

/-- The pages of the sealed object that starts at page p, ascending: consecutive sealed pages of one OBJECT. -/
def State.objectFrom (s : State) (p : Nat) : Nat → List Nat
  | 0 => []
  | k + 1 =>
    let e := s.tier.entry p
    if e.valid && e.sealed then
      p :: (if (s.tier.entry (p + 1)).object = e.object then s.objectFrom (p + 1) k else [])
    else []

/-- The image that INSTALL_HOOD takes: its manifest gives its length. -/
def State.sourceImage (s : State) (p : Nat) : Hood :=
  let n := (s.objectFrom p 4194304).length * Lay.page
  let m := s.rdBytes (p * Lay.page) 4096
  let h : Hood := ⟨m, 0⟩
  ⟨s.rdBytes (p * Lay.page) (min n (h.payloadAt + h.bytes)), 0⟩

/-- SHF.HOODS and SHF.FREE_PAGES. -/
def State.syncShelf (s : State) : State :=
  s.onBoard (fun b => b.setFlds Pg.shf [(F.shfHoodsCount, s.tier.hoods.length),
    (F.shfFreePagesPages, shelfPages - (s.tier.hoods.map Hood.pages).sum)])

/-- The shelf page where a hood is placed: after every other hood (notes/assumptions/22.md). -/
def State.nextShelfPage (s : State) : Nat := s.tier.hoods.foldl (fun a h => max a (h.shelfPage + h.pages)) 0

/-- The shelf has programmed the running INSTALL_HOOD: the hood takes the place of one with the same identifier. -/
def State.installHood (s : State) (c : MemCmd) : State :=
  let h : Hood := { s.sourceImage c.a1 with shelfPage := s.nextShelfPage }
  let s1 : State := { s with tier := { s.tier with hoods := s.tier.hoods.filter (fun g => !(g.id == h.id)) ++ [h] } }
  ((s1.syncShelf).onBoard (fun b => b.inc Pg.shf Cn.shfWriteBytes h.image.length)).finish c 0

/-- HOOD_ID of ERASE_HOOD and LOAD_HOOD. -/
def MemCmd.hoodId (c : MemCmd) : Nat := c.a2 + 2 ^ 32 * c.a3

/-- The shelf has erased the hood. -/
def State.eraseHood (s : State) (c : MemCmd) : State :=
  let s1 : State := { s with tier := { s.tier with hoods := s.tier.hoods.filter (fun g => !(g.id == c.hoodId)) } }
  ((s1.syncShelf).onBoard (fun b => b.inc Pg.shf Cn.shfErases 1)).finish c 0

/-! ### The command queue (R188, R496) -/

/-- Makes the command the running one. -/
def State.holdCmd (s : State) (c : MemCmd) (frames : List Nat) : State :=
  { s with tier := { s.tier with cmdRun := some c, cmdFrames := frames } }.syncMem

/-- Takes k free frames of tier 0. -/
def State.takeFrames (s : State) : Nat → List Nat × State
  | 0 => ([], s)
  | k + 1 =>
    match s.takeFrame 0 with
    | some (f, s1) => let (fs, s2) := s1.takeFrames k; (f :: fs, s2)
    | none => ([], s)

/-- LOAD_HOOD starts (R157, R186, R188). -/
def State.startLoad (s : State) (c : MemCmd) : State :=
  let n := c.a0 % 256
  let tag := c.a0 / 256
  let st := s.cstate n
  if st ≠ Cs.ready ∧ st ≠ Cs.running ∧ st ≠ Cs.stalled then s.finish c Cause.ctxState
  else
    match s.hoodOf c.hoodId with
    | none => (s.hoodFails n tag).finish c Cause.hoodInvalid
    | some h =>
      if !s.cmdInSlice n c.a1 h.chunks then s.finish c Cause.address
      else if !s.hoodGood h then (s.hoodFails n tag).finish c Cause.hoodInvalid
      else if (h.placement 0).length > s.framesFree 0 + s.framesFree 1 then (s.loadFull n tag).finish c Cause.tierFull
      else if st = Cs.ready then (s.enterLoading ⟨n, tag, h, c.a1⟩).finish c 0
      else (s.updCtx n (fun x => { x with loadPending := true })).holdCmd c []

/-- A command starts: it fails, completes at once, or runs until its completion (R496). -/
def State.startCmd (s : State) (c : MemCmd) : State :=
  let n := c.a0 % 256
  let inSlice := s.cmdInSlice n c.a1 c.a2
  let mapped := fun (p : Nat) => (s.tier.entry p).valid
  if c.op = 1 then
    if !inSlice || (cmdPages c).any mapped then s.finish c Cause.address
    else if c.a2 > s.framesFree 0 then s.finish c Cause.tierFull
    else
      let (fs, s1) := s.takeFrames c.a2
      s1.holdCmd c fs
  else if c.op = 2 then
    if !inSlice || !(cmdPages c).all mapped then s.finish c Cause.address else s.holdCmd c []
  else if c.op = 3 then s.startLoad c
  else if c.op = 4 then
    if !inSlice || (cmdPages c).any mapped || decide (c.a3 % 2 ^ 28 + c.a2 > 2 ^ 28) then s.finish c Cause.address
    else s.holdCmd c []
  else if c.op = 5 then
    let src := s.tier.entry c.a1
    if s.shelfLocked then s.shelfRefuse c
    else if !src.valid then s.finish c Cause.address
    else if !src.sealed then s.finish c Cause.notSealed
    else if (s.sourceImage c.a1).pages > s.board.fld Pg.shf F.shfFreePagesPages then s.shelfRefuse c
    else s.holdCmd c []
  else if c.op = 6 then
    if s.shelfLocked then s.shelfRefuse c
    else if (s.hoodOf c.hoodId).isNone then s.finish c Cause.hoodInvalid
    else s.holdCmd c []
  else s.finish c Cause.parameter

/-- Starts waiting commands while none runs, in arrival order. -/
def State.runMemN : Nat → State → State
  | 0, s => s
  | k + 1, s =>
    match s.tier.cmdRun, s.tier.cmdQ with
    | none, c :: rest => State.runMemN k (({ s with tier := { s.tier with cmdQ := rest } }.syncMem).startCmd c)
    | _, _ => s

/-- Memory commands run in SERVICE. -/
def State.runMem (s : State) : State := if s.inService then State.runMemN 17 s else s

/-- A write of MEM.CMD_OP: queues up to 16 commands, counts a further one (R188). -/
def State.queueMem (s : State) (op : Nat) : State :=
  if s.tier.cmdQ.length ≥ 16 then s.onBoard (fun b => b.inc Pg.mem Cn.memCmdDiscards 1)
  else
    let arg := fun i => s.board.fld Pg.mem (F.memCmdArgArg i)
    ({ s with tier := { s.tier with cmdQ := s.tier.cmdQ ++ [(⟨op, arg 0, arg 1, arg 2, arg 3⟩ : MemCmd)] } }.syncMem).runMem

/-- A host's write of a code to MEM.CMD_OP. -/
def memCommand (l : Link) (op : Nat) (s : State) : State := hostWrite l Pg.mem F.memCmdOpOp.off (fun s => s.queueMem op) s

/-- ALLOC (R188, R496). -/
def execAlloc (link : Link) (s : State) : Host.Outcome State Fault Refusal := done s (memCommand link 1 s)

/-- FREE (R188, R496). -/
def execFree (link : Link) (s : State) : Host.Outcome State Fault Refusal := done s (memCommand link 2 s)

/-- LOAD_HOOD (R186, R188). -/
def execLoadHood (link : Link) (s : State) : Host.Outcome State Fault Refusal := done s (memCommand link 3 s)

/-- MAP_REMOTE (R188, R496). -/
def execMapRemote (link : Link) (s : State) : Host.Outcome State Fault Refusal := done s (memCommand link 4 s)

/-- INSTALL_HOOD (R187). -/
def execInstallHood (link : Link) (s : State) : Host.Outcome State Fault Refusal := done s (memCommand link 5 s)

/-- ERASE_HOOD (R187). -/
def execEraseHood (link : Link) (s : State) : Host.Outcome State Fault Refusal := done s (memCommand link 6 s)

/-- UNDEFINED_MEM_CMD (R496): codes 0 and 7 to 15. -/
def execUndefinedMemCmd (link : Link) (op : Nat) (s : State) : Host.Outcome State Fault Refusal :=
  done s (if op = 0 ∨ (7 ≤ op ∧ op ≤ 15) then memCommand link op s else s)

/-- ALLOC completes: the frames are zero-filled and the entries mapped, WRITABLE (R179, R496). -/
def State.endAlloc (s : State) (c : MemCmd) : State :=
  let n := c.a0 % 256
  ((cmdPages c).zip s.tier.cmdFrames).foldl (fun s p =>
    let s1 : State := { s with mem := memClear s.mem (p.1 * Lay.page) ((p.1 + 1) * Lay.page) }
    s1.swapEntry p.1 { PageEntry.none with tier := 0, valid := true, writable := true, ctx := n, frame := p.2 }) s |>.finish c 0

/-- FREE completes: the entries are unmapped and the frames freed (R188). -/
def State.endFree (s : State) (c : MemCmd) : State :=
  ((cmdPages c).foldl (fun s p => s.swapEntry p PageEntry.none) (s.abandon (cmdPages c))).syncMem.finish c 0

/-- MAP_REMOTE completes: one sealed object of remote pages (R496). -/
def State.endMapRemote (s : State) (c : MemCmd) : State :=
  let obj := s.tier.nextObject
  let s1 := (List.range c.a2).foldl (fun s i =>
    s.swapEntry (c.a1 + i) { PageEntry.none with tier := 3, valid := true, sealed := true, ctx := c.a0 % 256, frame := c.a3 + i, object := obj }) s
  { s1 with tier := { s1.tier with nextObject := obj + 1 } }.finish c 0

/-- LOAD_HOOD of a context that was running: it enters LOADING once its operators have completed; a context that has left
RUNNING and STALLED otherwise refuses it (R157). -/
def State.tryLoading (s : State) (c : MemCmd) : State :=
  let n := c.a0 % 256
  if !(s.ctx n).loadPending then s.finish c Cause.ctxState
  else if !(s.live n).isEmpty then s
  else
    match s.hoodOf c.hoodId with
    | none => ((s.updCtx n (fun x => { x with loadPending := false })).hoodFails n (c.a0 / 256)).finish c Cause.hoodInvalid
    | some h => (s.enterLoading ⟨n, c.a0 / 256, h, c.a1⟩).finish c 0

/-- The running command completes (R496). -/
def State.endCmd (s : State) : State :=
  match s.tier.cmdRun with
  | none => s
  | some c =>
    (if c.op = 1 then s.endAlloc c
     else if c.op = 2 then s.endFree c
     else if c.op = 3 then s.tryLoading c
     else if c.op = 4 then s.endMapRemote c
     else if c.op = 5 then s.installHood c
     else s.eraseHood c).runMem

/-- A boundary completes a FREE, a MAP_REMOTE and a LOAD_HOOD that waits (R157, R496). -/
def State.boundaryCmd (s : State) : State :=
  match s.tier.cmdRun with
  | some c => if c.op = 2 ∨ c.op = 3 ∨ c.op = 4 then s.endCmd else s
  | none => s

/-- MEM_CMD_COMPLETE (R496): the running command reaches its completion point. -/
def execMemCmdComplete (s : State) : Host.Outcome State Fault Refusal := done s s.endCmd

/-- A DISABLE: a load in progress is abandoned. -/
def State.disableCmd (s : State) (ctx : Nat) : State :=
  let s1 := if s.cstate ctx = Cs.loading then
    { s with tier := { s.tier with loads := s.tier.loads.filter (fun l => !(l.ctx == ctx)) } }.syncLoads else s
  s1.ctxDisable ctx

/-- DISABLE (R157): to FREE at the first boundary after the operators in flight complete; a load in progress is abandoned. -/
def execDisable (link : Link) (ctx : Nat) (s : State) : Host.Outcome State Fault Refusal :=
  done s (hostWrite link (ctxPage ctx) ((F.opqCtxCmdDisable (ctx % 16)).off) (fun s => s.disableCmd ctx) s)

/-! ### The migration engine (R189, R190) -/

/-- A refusal: a context event record and MEM.MIG_REFUSED. -/
def State.migRefuse (s : State) (q : MigReq) (cause : Nat) : State :=
  (s.ctxEvent q.ctx cause q.tag).onBoard (fun b => b.inc Pg.mem Cn.memMigRefused 1)

/-- Takes page p off a request at the head of the queue; an empty request leaves it. -/
def State.migPop (s : State) (q : MigReq) : State :=
  let rest := s.tier.migQ.drop 1
  { s with tier := { s.tier with migQ := (match q.pages.drop 1 with | [] => rest | ps => { q with pages := ps } :: rest) } }

/-- TIER_FULL: the page and the rest of the request stay; a promote updates the fit report (R190, R191). -/
def State.migFull (s : State) (q : MigReq) : State :=
  let s1 := ({ s with tier := { s.tier with migQ := s.tier.migQ.drop 1 } }.migRefuse q Cause.tierFull).onBoard (fun b =>
    b.raise Pg.mem F.memEventTierFull)
  if q.promote then
    let up := fun (p : Nat) => (s1.tier.entry p).tier = 0 || s1.tier.fly.any (fun f => f.page == p) || s1.tier.changes.any (fun c => c.page == p)
    let n1 := (q.range.filter (fun p => (s1.tier.entry p).valid && decide ((s1.tier.entry p).tier = 1) && !up p)).length
    s1.fitReport q.ctx (q.range.filter (fun p => (s1.tier.entry p).valid && up p)).length n1
  else s1

/-- Sends a page off to a frame. -/
def State.fly (s : State) (p tier frame : Nat) : State := { s with tier := { s.tier with fly := s.tier.fly ++ [(⟨p, tier, frame, false⟩ : MigFly)] } }

/-- The engine takes pages from the front of its queue while fewer than 16 are in flight; a page that is still in flight or
about to switch holds the queue, so that requests on one object take effect in order. -/
def State.migStep : Nat → State → State
  | 0, s => s
  | k + 1, s =>
    match s.tier.migQ with
    | [] => s
    | q :: _ =>
      match q.pages with
      | [] => State.migStep k { s with tier := { s.tier with migQ := s.tier.migQ.drop 1 } }
      | p :: _ =>
        let e := s.tier.entry p
        let s1 := s.migPop q
        if (s.tier.fly.filter (fun f => !f.refetch)).length ≥ 16 || s.tier.fly.any (fun f => f.page == p) ||
            s.tier.changes.any (fun c => c.page == p) then s
        else if !e.valid then State.migStep k s1
        else if q.promote then
          if e.tier = 0 then State.migStep k s1
          else
            match s1.takeFrame 0 with
            | some (f, s2) => State.migStep k (s2.fly p 0 f)
            | none => State.migStep k (s.migFull q)
        else if !e.sealed then State.migStep k (s1.migRefuse q Cause.notSealed)
        else if e.tier ≠ 0 then State.migStep k s1
        else if e.homeValid then
          State.migStep k { s1 with tier := { s1.tier with changes := s1.tier.changes ++
            [(⟨p, { e with tier := e.homeTier, frame := e.homeFrame, homeValid := false, homeTier := 0, homeFrame := 0 }, true⟩ : MapChange)] } }
        else
          match s1.takeFrame 1 with
          | some (f, s2) => State.migStep k (s2.fly p 1 f)
          | none => State.migStep k (s.migFull q)

/-- Runs the engine as far as it can go. -/
def State.migrate (s : State) : State := (State.migStep ((s.tier.migQ.map (fun q => q.pages.length + 1)).sum) s).syncMem

/-- A request arrives at the engine; a full queue rejects it with MIGRATE_BUSY (R190). -/
def State.migRequest (s : State) (n tag : Nat) (promote : Bool) (ps : List Nat) : State :=
  let q : MigReq := ⟨n, tag, promote, ps, ps⟩
  if s.tier.migQ.length ≥ 256 then s.migRefuse q Cause.migrateBusy
  else { s with tier := { s.tier with migQ := s.tier.migQ ++ [q] } }

/-- MIGRATE: T0 is a plain range of bytes. -/
def migDef (sub : Nat) : OpDef :=
  { opcode := 0x80, subops := [sub], lowest := 3, arity := fun _ => [1], fmts := fun _ _ => fAny, outs := fun _ => [],
    pair := fun _ => none, shape := fun _ => none, param := fun _ _ => false, alone := true, run := fun _ _ _ => RunOut.nil }

/-- The pages of a MIGRATE's range. -/
def Desc.migPages (d : Desc) : List Nat :=
  pagesOf (d.slot 0).addr ((d.slot 0).rows * (d.slot 0).cols * (d.slot 0).batch)

/-- A seal: WRITABLE cleared, SEALED and OBJECT set in every entry, in the cycle the MIGRATE completes (R189). -/
def State.seal (s : State) (ps : List Nat) : State :=
  let obj := s.tier.nextObject
  let s1 := ps.foldl (fun s p => { s with tier := s.tier.setEntry p { s.tier.entry p with writable := false, sealed := true, object := obj } }) s
  { s1 with tier := { s1.tier with nextObject := obj + 1 } }

/-- A MIGRATE operator starts and completes once its request is queued (R156); then the engine goes on. -/
def State.runMigrate (s : State) (sub n : Nat) : State :=
  let q := s.ci n
  let d := Desc.ofBytes ((s.nextDesc n).getD [])
  let s1 := s.startOp (migDef sub) n
  if !s1.inFlight n q then s1
  else if sub = 2 then (s1.seal d.migPages).completeOp n q
  else
    let s2 := (s1.migRequest n d.tag (sub == 0) d.migPages).completeOp n q
    if s.tier.migQ.length ≥ 256 then s2 else s2.migrate

/-- MIGRATE_PROMOTE (R190). -/
def execMigratePromote (ctx : Nat) (s : State) : Host.Outcome State Fault Refusal := done s (s.runMigrate 0 ctx)

/-- MIGRATE_DEMOTE (R190). -/
def execMigrateDemote (ctx : Nat) (s : State) : Host.Outcome State Fault Refusal := done s (s.runMigrate 1 ctx)

/-- MIGRATE_SEAL (R189). -/
def execMigrateSeal (ctx : Nat) (s : State) : Host.Outcome State Fault Refusal := done s (s.runMigrate 2 ctx)

/-- The entry of a page whose copy has arrived in a frame (R190, R195). -/
def PageEntry.arrived (e : PageEntry) (f : MigFly) : PageEntry :=
  if f.refetch then { e with tier := f.tier, frame := f.frame }
  else if f.tier = 0 ∧ !e.homeValid then
    { e with tier := 0, frame := f.frame, homeValid := true, homeTier := e.tier, homeFrame := e.frame }
  else { e with tier := f.tier, frame := f.frame }

/-- A page in flight has landed: its entry switches at the next boundary. -/
def State.landed (s : State) (page : Nat) (refetch : Bool) : State :=
  match s.tier.fly.find? (fun f => f.page == page && f.refetch == refetch) with
  | none => s
  | some f =>
    { s with tier := { s.tier with fly := s.tier.fly.erase f
                                   changes := s.tier.changes ++ [(⟨page, (s.tier.entry page).arrived f, !refetch⟩ : MapChange)] } }.migrate

/-- MIGRATION_PAGE_DONE (R190). -/
def execMigrationPageDone (page : Nat) (s : State) : Host.Outcome State Fault Refusal := done s (s.landed page false)

/-- REFETCH_DONE (R195). -/
def execRefetchDone (page : Nat) (s : State) : Host.Outcome State Fault Refusal := done s (s.landed page true)

/-! ### Errors of slices and DRAM (R195) -/

/-- The frame that holds an interleave position of a slice or channel (R404). -/
def State.frameAt (s : State) (dram : Bool) (unit pos : Nat) : Option Nat :=
  if dram then dramFrame (liveList s.bup.merged) unit pos else some (sliceFrame unit pos)

/-- The page that a frame of tier 0 or 1 holds. -/
def State.pageAt (s : State) (tier frame : Nat) : Option Nat :=
  (s.tier.map.find? (fun e => e.2.valid && e.2.tier == tier && e.2.frame == frame)).map Prod.fst

/-- An uncorrectable error of a sealed page with a home: a refetch into a fresh frame, or into its own when none is free. -/
def State.refetch (s : State) (p tier frame : Nat) : State :=
  if s.tier.fly.any (fun f => f.page == p && f.refetch) then s
  else
    let (f, s1) := match s.takeFrame tier with
      | some x => x
      | none => (frame, s)
    { s1 with tier := { s1.tier with fly := s1.tier.fly ++ [(⟨p, tier, f, true⟩ : MigFly)] } }.onBoard (fun b => b.inc Pg.mem Cn.memRefetches 1)

/-- An uncorrectable error of any other page: POISON and PAGE_LOST, and the step is aborted. -/
def State.losePage (s : State) (p : Option Nat) : State :=
  let s1 := match p with
    | some p => { s with tier := s.tier.setEntry p { s.tier.entry p with poison := true } }
    | none => s
  let s2 := s1.onBoard (fun b => (b.inc Pg.mem Cn.memPagesPoisoned (b2n p.isSome)).raise Pg.mem F.memEventPageLost)
  s2.reportB ((p.map (fun p => s2.stepOf (s2.tier.entry p).ctx)).getD 0)

/-- MEMORY_ECC_ERROR (R195). -/
def execMemoryEccError (dram : Bool) (unit pos : Nat) (uncorrectable : Bool) (s : State) : Host.Outcome State Fault Refusal :=
  done s (
    let page := if dram then Pg.drm (unit / 32) else Pg.slc (unit / 24)
    let ceOff := if dram then Cn.drmCeCount else Cn.slcCeCount
    let ueOff := if dram then Cn.drmUeCount else Cn.slcUeCount
    let ce := if dram then F.drmEventCe else F.slcEventCe
    let ue := if dram then F.drmEventUe else F.slcEventUe
    let scrub := if dram then Cn.drmScrubBytes else Cn.slcScrubBytes
    let tier := b2n dram
    if !s.powered page || (dram && 3072 ≤ unit) || (!dram && 576 ≤ unit) then s
    else if !uncorrectable then s.onBoard (fun b => ((b.inc page ceOff 1).inc page scrub 32).raise page ce)
    else
      match s.frameAt dram unit pos with
      | none => s.onBoard (fun b => (b.inc page ueOff 1).raiseAs page ue.lsb .a)
      | some f =>
        let k := tier * 2 ^ 32 + f
        let n := Tbl.get (fun _ => 0) s.tier.ueCount k + 1
        let s1 : State := { s with tier := { s.tier with ueCount := Tbl.set (fun _ => 0) s.tier.ueCount k n } }.onBoard (fun b => b.inc page ueOff 1)
        let s2 := if n = 2 then s1.appendDefect ⟨if dram then 11 else 10, 4, unit, pos⟩ else s1
        match s2.pageAt tier f with
        | some p =>
          let e := s2.tier.entry p
          if e.sealed && e.homeValid then (s2.refetch p tier f).onBoard (fun b => b.raiseAs page ue.lsb .a)
          else (s2.onBoard (fun b => b.raiseAs page ue.lsb .b)).losePage (some p)
        | none =>
          if !dram && decide (f < Lay.frame0Lo) then (s2.onBoard (fun b => b.raiseAs page ue.lsb .b)).losePage none
          else s2.onBoard (fun b => b.raiseAs page ue.lsb .a))

/-- A channel stops answering (R195): class C; it is logged and leaves the live list at the next bring-up. -/
def State.channelDown (s : State) (ch : Nat) : State :=
  let page := Pg.drm (ch / 32)
  let m := s.board.fld page F.drmChanDownMask
  if !s.powered page || !(liveList s.bup.merged).contains ch || m.testBit (ch % 32) then s
  else
    (s.onBoard (fun b => b.setFld page F.drmChanDownMask (setBit m (ch % 32)))).classC page F.drmEventChannelDown |>.appendDefect ⟨7, 4, ch, 0⟩

/-- CHANNEL_DOWN (R195). -/
def execChannelDown (ch : Nat) (s : State) : Host.Outcome State Fault Refusal := done s (s.channelDown ch)

/-! ### Pounce and the shelf (R194, R201) -/

/-- Adds a tick's budget to a position in a cycle of `size` bytes; whether it came round. -/
def advance (pos n size : Nat) : Nat × Bool := ((pos + n) % size, decide (size ≤ pos + n))

/-- POUNCE_SCRUB (R194): one tick's budget of every unit. MEM.POUNCE_PASSES counts passes of the channels, the longest cycle
(DESIGN CHOICE, notes/assumptions/23.md). -/
def execPounceScrub (s : State) : Host.Outcome State Fault Refusal :=
  done s (
    if !s.gridRuns then s
    else
      let ws := s.board.fld Pg.mem F.memPounceCfgWsUnits * 2 ^ 14
      let slc := s.board.fld Pg.mem F.memPounceCfgSlcUnits * 2 ^ 12
      let drm := s.board.fld Pg.mem F.memPounceCfgDrmUnits * 2 ^ 8
      let d := advance s.tier.pounceDrm drm (768 * 2 ^ 20)
      let t : Tier := { s.tier with
        pounceWs := (advance s.tier.pounceWs ws (2 ^ 27)).1,
        pounceSlc := (advance s.tier.pounceSlc slc (2 ^ 26)).1,
        pounceDrm := d.1 }
      let s1 : State := { s with tier := t }
      s1.onBoard (fun b =>
        let b1 := (List.range 24).foldl (fun b t => if s.powered (Pg.slc t) then b.inc (Pg.slc t) Cn.slcScrubBytes (24 * slc) else b) b
        let b2 := (List.range 96).foldl (fun b k => b.inc (Pg.drm k) Cn.drmScrubBytes (drm * popcount 32 (b.fld (Pg.drm k) F.drmChanLiveMask))) b1
        if d.2 then b2.inc Pg.mem Cn.memPouncePasses 1 else b2))

/-- BLOCK_RETIRED (R201): wear management moves the block's pages; how many bytes that is stays open. -/
def execBlockRetired (spareLow : Bool) (s : State) : Host.Outcome State Fault Refusal :=
  done s (
    if !s.powered Pg.shf then s
    else
      let (k, s1) := s.freeNat
      s1.onBoard (fun b =>
        let b1 := ((b.inc Pg.shf Cn.shfBlocksRetired 1).inc Pg.shf Cn.shfWearMoveBytes k).raise Pg.shf F.shfEventBlockRetired
        if spareLow then b1.raise Pg.shf F.shfEventSpareLow else b1))

/-- NAND_ERROR_CORRECTED (R201). -/
def execNandErrorCorrected (s : State) : Host.Outcome State Fault Refusal :=
  done s (if s.powered Pg.shf then s.onBoard (fun b => b.raise Pg.shf F.shfEventCe) else s)

end Sys2Proof.Machine
end

