-- ==== Sys2Proof/Machine/Crown.lean ====
section
/-! DEFINITION. Group time, job barriers, aborts, exclusion and handover (11_tick_and_roles: R329 to R344). -/
namespace Sys2Proof.Machine

/-- A TICK message from an engine group takes effect where R286 and R307 let it. -/
def tickMsg (group : Nat) (act : State → State) (s : State) : State := s.arrives group 0 act

/-- A MGMT message from an engine group. -/
def mgmtMsg (group : Nat) (act : State → State) (s : State) : State := s.arrives group 1 act

/-! ### Group time (R333, R334) -/

/-- The local length of the crown's period: the rate between successive SYNCs, to the nearest cycle. -/
def State.localPeriod (s : State) (cg est per : Nat) : Nat :=
  match s.crown.lastSync with
  | some (c, l) => if c < cg ∧ l < est then (2 * per * (est - l) + (cg - c)) / (2 * (cg - c)) else per
  | none => per

/-- The grid is anchored at a grid point. -/
def State.anchor (s : State) (tick gtc per : Nat) : State :=
  s.onCrown (fun c => { c with baseTick := tick, base := gtc, period := per })

/-- A SYNC gives the crown's grid point (R333, R334): up to 2 cycles of difference are slewed away, more than 2 wait for the next step
boundary, where the grid moves onto the crown's. -/
def State.syncIn (s : State) (body : Bytes) (at_ : Nat) : State :=
  if !s.isFollower then s
  else
    let cg := leAt body 0 8
    let tick := leAt body 8 8
    let cper := leAt body 16 4
    let est := at_ - s.crown.delay
    let per := s.localPeriod cg est cper
    let mine := s.gridPoint tick
    let err := max est mine - min est mine
    let s1 := (s.onCrown (fun c => { c with
      lastSync := some (cg, est), crownPer := cper, syncLost := 0, lost := false, deputyLost := false, origin := cg - tick * cper })).onBoard
      (fun b => { b with gtc := max b.gtc at_ }.inc Pg.tk Cn.tkSyncs 1)
    let near := s.gridRuns && decide (s.crown.baseTick ≤ tick) && decide (err ≤ 2) && s.crown.moveTo.isNone
    if near then
      ((s1.anchor tick est per).onCrown (fun c => { c with follows := true })).onBoard (fun b =>
        (b.inc Pg.tk Cn.tkSlewCycles err).setFld Pg.tk F.tkStatusGroupLocked 1)
    else
      let s2 := s1.onCrown (fun c => { c with follows := true, moveTo := some (tick, est, per) })
      s2.onBoard (fun b => when s.crown.follows (fun b => b.raise Pg.tk F.tkEventSlewLimit) (b.setFld Pg.tk F.tkStatusGroupLocked 0))

/-- SYNC (R333). -/
def execSync (group : Nat) (body : Bytes) (at_ : Nat) (s : State) : Host.Outcome State Fault Refusal :=
  done s (tickMsg group (fun s => (s.syncIn body at_).syncTk) s)

/-- DELAY_REQ (R333): answered with the receipt and the transmission times. -/
def State.delayReqIn (s : State) (g : Nat) (body : Bytes) : State :=
  s.sendMsg g 0 0x03 (bodyOf 32 [(0, 8, leAt body 0 8), (8, 8, s.board.gtc), (16, 8, s.board.gtc)])

/-- DELAY_REQ (R333). -/
def execDelayReq (group : Nat) (body : Bytes) (s : State) : Host.Outcome State Fault Refusal :=
  done s (tickMsg group (fun s => s.delayReqIn group body) s)

/-- DELAY_RESP (R333): half the round trip less the far end's turnaround. -/
def State.delayRespIn (s : State) (body : Bytes) : State :=
  match s.crown.delaySent with
  | some t =>
    if leAt body 0 8 = t then
      s.onCrown (fun c => { c with delay := ((s.board.gtc - t) - (leAt body 16 8 - leAt body 8 8)) / 2, delaySent := none })
    else s
  | none => s

/-- DELAY_RESP (R333). -/
def execDelayResp (group : Nat) (body : Bytes) (s : State) : Host.Outcome State Fault Refusal :=
  done s (tickMsg group (fun s => s.delayRespIn body) s)

/-! ### Job barriers (R337) -/

/-- ARRIVE from a child. -/
def State.arriveIn (s : State) (g : Nat) (body : Bytes) : State :=
  (s.onCrown (fun c => { c with barId := some (leAt body 0 4), barKids := c.barKids.filter (fun k => !(k.1 == g)) ++ [(g, leAt body 4 4)] })).barTry

/-- ARRIVE (R337). -/
def execArrive (group : Nat) (body : Bytes) (s : State) : Host.Outcome State Fault Refusal :=
  done s (tickMsg group (fun s => s.arriveIn group body) s)

/-- RELEASE: passed down, and due at its instant. -/
def State.releaseIn (s : State) (g : Nat) (body : Bytes) : State :=
  (s.toChildrenBut (some g) 0 0x05 body).onCrown (fun c => { c with releaseAt := some (s.localTime (leAt body 8 8)), barId := some (leAt body 0 4) })

/-- RELEASE (R337). -/
def execRelease (group : Nat) (body : Bytes) (s : State) : Host.Outcome State Fault Refusal :=
  done s (tickMsg group (fun s => s.releaseIn group body) s)

/-- JOB_BARRIER_RELEASE (R337): the release instant has come. -/
def execJobBarrierRelease (s : State) : Host.Outcome State Fault Refusal :=
  done s (match s.crown.releaseAt with
    | some t => (s.onCrown (fun c => { c with releaseAt := none, barId := none })).onBoard (fun b => { b with gtc := max b.gtc t })
    | none => s)

/-! ### REMAP (R340, R341, R159) -/

/-- What a REMAP that names this module does (R340, R421): partition 0xFF excludes it; any other gives it a job rank and size, and
partitions 0 to 15 their cores. -/
def State.applyRemap (s : State) (body : Bytes) : State :=
  let p := leAt body 6 1
  let s1 := s.onBoard (fun b => b.inc Pg.role Cn.roleRemaps 1)
  if p = 0xFF then (s1.setRole 0).onBoard (fun b => b.setFld Pg.bup F.bupStatusExcluded 1)
  else
    let s2 := (if s1.role = 0 ∧ s1.inService then s1.setRole 1 else s1).onBoard (fun b => (b.setFlds Pg.role
      [(F.roleRankJobRank, leAt body 20 2), (F.roleRankJobSizeM1, leAt body 24 2)]).setFld Pg.bup F.bupStatusExcluded 0)
    if p < 16 then
      (s2.onBoard (fun b => (b.setPartMask p (leAt body 8 12)).raise Pg.opq0 F.opq0EventPartRemap)).feedRemap p
    else s2

/-- Some context has completed the STEP that a REMAP names, or no context runs a step. -/
def State.remapDue (s : State) (body : Bytes) : Bool :=
  let cs := (List.range 256).filter (fun n => decide (s.cstate n ≠ Cs.free))
  cs.isEmpty || cs.any (fun n => (s.ctx n).stepped && decide (leAt body 0 4 ≤ (s.ctx n).stepNo))

/-- Applies every REMAP that waits, or every one that is due. -/
def State.applyRemaps (s : State) (all : Bool) : State :=
  let go := s.crown.remaps.filter (fun b => all || s.remapDue b)
  let s1 := s.onCrown (fun c => { c with remaps := c.remaps.filter (fun b => !go.contains b) })
  go.foldl State.applyRemap s1

/-- REMAP: every module learns the rank it gives (R331); its target schedules it, the others pass it on. -/
def State.remapIn (s : State) (g : Nat) (body : Bytes) : State :=
  let rack := leAt body 4 2 % 4096
  let rank := leAt body 20 2
  let s1 := if rack = s.rack then s else s.onCrown (fun c => { c with members := c.members.filter (fun m => !(m.1 == rank) && !(m.2 == rack)) ++
    (if leAt body 6 1 = 0xFF then [] else [(rank, rack)]) })
  if rack = s.rack then s1.onCrown (fun c => { c with remaps := c.remaps ++ [body] })
  else
    match s1.peerGroup rack with
    | some k => s1.sendMsg k 1 0x10 body
    | none => s1.toChildrenBut (some g) 1 0x10 body

/-- REMAP (R341). -/
def execRemap (group : Nat) (body : Bytes) (s : State) : Host.Outcome State Fault Refusal :=
  done s (mgmtMsg group (fun s => s.remapIn group body) s)

/-- REMAP_TAKE_EFFECT (R340): the step boundary of the REMAPs that wait. -/
def execRemapTakeEffect (s : State) : Host.Outcome State Fault Refusal := done s (if s.gridRuns then s.applyRemaps false else s)

/-- HOST_EXCLUSION (R340): the owning host of the crown's module. -/
def execHostExclusion (link : Link) (body : Bytes) (s : State) : Host.Outcome State Fault Refusal :=
  done s (if s.isCrown && s.answers && s.board.owner == some (linkIdx link) then s.issueRemap body else s)

/-! ### Aborts (R338, R327) -/

/-- ABORT: passed down and scheduled. -/
def State.abortIn (s : State) (g : Nat) (body : Bytes) : State :=
  let a : Abort := ⟨leAt body 0 4, leAt body 4 1, leAt body 5 1, leAt body 8 8⟩
  let s1 := s.toChildrenBut (some g) 0 0x06 body
  if s1.crown.aborts.any (fun x => x.step == a.step && x.attempt == a.attempt) then s1
  else s1.onCrown (fun c => { c with aborts := c.aborts ++ [a] })

/-- ABORT (R338). -/
def execAbort (group : Nat) (body : Bytes) (s : State) : Host.Outcome State Fault Refusal :=
  done s (tickMsg group (fun s => s.abortIn group body) s)

/-- The tasks of a core end. -/
def State.endTask (s : State) (c : Nat) : State :=
  (s.setCore c { s.core c with task := none, doneAt := none, overran := none, strands := [], sampled := true }).onBoard (fun b =>
    b.setFlds (Pg.core c) [(F.coreStatusBusy, 0), (F.coreStrandStateLive, 0)])

/-- The cores of every partition that has a running context. -/
def State.busyCores (s : State) : List Nat :=
  (List.range 16).flatMap (fun p => if (s.runningCtx p).isSome then s.partCores p else [])

/-- What a module does at the target of an abort (R338, R163, R247, R272): operators and tasks end, every context that is not FREE
rewinds, the step's invocations and the scoreboards clear, then REMAPs apply; after another class B fault the replay is audited
(R276). The replay starts at the next boundary. -/
def State.abortNow (s : State) (a : Abort) : State :=
  let cores := s.busyCores
  let s1 := s.onBoard (fun b => ((b.inc Pg.role Cn.roleAborts 1).setFlds Pg.role
    [(F.roleLastAbortStepStep, a.step), (F.roleLastAbortAttempt, a.attempt), (F.roleLastAbortReason, a.reason)]).raise Pg.role F.roleEventAbort)
  let s2 := cores.foldl State.endTask s1
  let s3 := (List.range 256).foldl State.rewind s2
  let s4 := s3.treesAbort a.step a.reason
  let s5 := (List.range 16).foldl State.feedAbort s4
  let s6 := s5.applyRemaps true
  let s7 := if a.reason < 3 then s6 else cores.foldl (fun s c => s.haccMode 3 c) s6
  s7.onCrown (fun c => { c with resumeAt := some (a.target + 1) })

/-- Carries out every abort whose target is grid point n or an earlier one. -/
def State.abortsAt (s : State) (n : Nat) : State :=
  let go := s.crown.aborts.filter (fun a => decide (a.target ≤ n))
  go.foldl State.abortNow (s.onCrown (fun c => { c with aborts := c.aborts.filter (fun a => !decide (a.target ≤ n)) }))

/-- ABORT_TAKE_EFFECT (R338): the grid point that comes is the target of an abort. -/
def execAbortTakeEffect (s : State) : Host.Outcome State Fault Refusal :=
  done s (if s.gridRuns then s.abortsAt (s.crown.tick + 1) else s)

/-! ### Notices and reports to the crown (R330, R338 to R340) -/

/-- A notice on its way: between the phases of a handover the crown forwards it to the candidate too; a group's crown passes it to the
top crown, a worker toward the crown. -/
def State.noticeIn (s : State) (sub : Nat) (body : Bytes) (act : State → State) : State :=
  let s1 := if s.isCrown && s.board.flag Pg.role F.roleStatusHandover then s.toRack s.crown.swapRack 1 sub body else s
  if s1.holdsTop then act s1
  else if s1.isCrown then (s1.onBoard (fun b => b.inc Pg.role Cn.roleNotices 1)).toParent 1 sub body
  else s1.toCrown 1 sub body

/-- BATT_FAILURE_NOTICE (R338). -/
def execBattFailureNotice (group : Nat) (body : Bytes) (s : State) : Host.Outcome State Fault Refusal :=
  done s (mgmtMsg group (fun s => s.noticeIn 0x20 body (fun s => s.battNotice body)) s)

/-- MISSING_CONTRIBUTOR_NOTICE (R272). -/
def execMissingContributorNotice (group : Nat) (body : Bytes) (s : State) : Host.Outcome State Fault Refusal :=
  done s (mgmtMsg group (fun s => s.noticeIn 0x21 body (fun s => s.missNotice body)) s)

/-- A report of SLOW or DEGRADED cores of a rack: the crown excludes them under AUTO_EXCLUDE. -/
def State.slowIn (s : State) (body : Bytes) : State :=
  let rack := leAt body 0 2 % 4096
  let mask := leAt body 4 12
  if !s.isCrown then s.toCrown 1 0x11 body
  else if leAt body 2 1 = 0 ∨ !s.autoExclude then s
  else if rack = s.rack then s.excludeOwn mask
  else s.excludeFar rack mask

/-- SLOW_REPORT (R340). -/
def execSlowReport (group : Nat) (body : Bytes) (s : State) : Host.Outcome State Fault Refusal :=
  done s (mgmtMsg group (fun s => s.slowIn body) s)

/-- DEGRADED_REPORT (R67): the manual gives it no form; the body is taken as a SLOW_REPORT's (notes/assumptions/16.md). A module that
is no crown passes it on. -/
def execDegradedReport (group : Nat) (body : Bytes) (s : State) : Host.Outcome State Fault Refusal :=
  done s (mgmtMsg group (fun s =>
    if s.isCrown then s.slowIn (slice body 0 2 ++ toLE 1 1 ++ slice body 3 29) else s.sendReport body) s)

/-- CLASS_B_FAULT_REPORT (R338): the manual gives it no form; STEP and ATTEMPT are taken where a notice has them
(notes/assumptions/16.md). -/
def execClassBFaultReport (group : Nat) (body : Bytes) (s : State) : Host.Outcome State Fault Refusal :=
  done s (mgmtMsg group (fun s =>
    if !s.gridRuns then s
    else if !s.holdsTop then s.sendReport body
    else if leAt body 3 1 = s.attemptOf (leAt body 4 4) then s.decideAbort (leAt body 4 4) 3
    else s) s)

/-! ### Handover (R342, R343) -/

/-- SWAP_STATE and STATUS.HANDOVER. -/
def State.setSwap (s : State) (st : Nat) (between : Bool) : State :=
  s.onBoard (fun b => b.setFlds Pg.role [(F.roleSwapStateState, st), (F.roleStatusHandover, b2n between)])

/-- SWAP_STATE.STATE. -/
def State.swapState (s : State) : Nat := s.board.fld Pg.role F.roleSwapStateState

/-- The crown commits a handover to a rack: SWAP_COMMIT with a target at least one one-way bound ahead. -/
def State.commitSwap (s : State) (rack : Nat) : State :=
  let a := s.gridAt (s.board.gtc + s.oneWay)
  (((s.onCrown (fun c => { c with swapRack := rack, candidate := false, swapAt := some a })).setSwap 3 true).toRack rack 1 0x15
    (bodyOf 32 [(8, 8, a)]))

/-- This module accepts the other end's request. -/
def State.acceptSwap (s : State) (rack : Nat) : State :=
  let s1 := s.toRack rack 1 0x13 (bodyOf 32 [(0, 2, s.rack)])
  if s1.isCrown then s1.commitSwap rack
  else (s1.onCrown (fun c => { c with swapRack := rack, candidate := true, swapAt := none })).setSwap 2 true

/-- This module refuses a request with a cause. -/
def State.refuseSwap (s : State) (rack cause : Nat) : State := s.toRack rack 1 0x14 (bodyOf 32 [(0, 1, cause)])

/-- A SWAP_REQ (R342, R343): refused outside SERVICE, by a module that is no end of such a handover, between the phases of another, and
where the module's own request is outstanding, unless that went to the sender and the sender has the lower rack index. -/
def State.swapReqIn (s : State) (body : Bytes) : State :=
  let rack := leAt body 0 2 % 4096
  let sought := leAt body 2 1
  let crown := s.board.fld Pg.role F.roleCrownCurrent
  let ends := if sought = 2 then s.isCrown else sought == 1 && !s.isCrown && crown == rack
  if !s.inService then s.refuseSwap rack 3
  else if s.role = 0 ∨ !ends then s.refuseSwap rack 2
  else if s.board.flag Pg.role F.roleStatusHandover then s.refuseSwap rack 1
  else if s.swapState = 1 ∧ (s.crown.swapRack ≠ rack ∨ s.rack < rack) then s.refuseSwap rack 1
  else s.acceptSwap rack

/-- SWAP_REQ (R342). -/
def execSwapReq (group : Nat) (body : Bytes) (s : State) : Host.Outcome State Fault Refusal :=
  done s (mgmtMsg group (fun s => s.swapReqIn body) s)

/-- A SWAP_ACCEPT answers this module's own request. -/
def State.swapAcceptIn (s : State) (body : Bytes) : State :=
  let rack := leAt body 0 2 % 4096
  if s.swapState ≠ 1 ∨ s.crown.swapRack ≠ rack then s
  else if s.isCrown then s.commitSwap rack
  else (s.onCrown (fun c => { c with candidate := true, swapAt := none })).setSwap 2 true

/-- SWAP_ACCEPT (R342). -/
def execSwapAccept (group : Nat) (body : Bytes) (s : State) : Host.Outcome State Fault Refusal :=
  done s (mgmtMsg group (fun s => s.swapAcceptIn body) s)

/-- A SWAP_REFUSE: cause 1 is a ROLE_CONFLICT (R343). -/
def State.swapRefuseIn (s : State) (body : Bytes) : State :=
  let cause := leAt body 0 1
  let s1 := (if s.swapState = 1 then s.setSwap 4 false else s).onBoard (fun b => b.setFld Pg.role F.roleSwapStateCause cause)
  if cause = 1 then
    (s1.onCrown (fun c => { c with conflictAt := some s.crown.tick })).onBoard (fun b =>
      (b.inc Pg.role Cn.roleConflicts 1).raise Pg.role F.roleEventRoleConflict)
  else s1

/-- SWAP_REFUSE (R343). -/
def execSwapRefuse (group : Nat) (body : Bytes) (s : State) : Host.Outcome State Fault Refusal :=
  done s (mgmtMsg group (fun s => s.swapRefuseIn body) s)

/-- A SWAP_COMMIT reaches the candidate. -/
def State.swapCommitIn (s : State) (body : Bytes) : State :=
  if s.crown.candidate ∧ s.swapState = 2 then (s.onCrown (fun c => { c with swapAt := some (leAt body 8 8) })).setSwap 3 true else s

/-- SWAP_COMMIT (R342). -/
def execSwapCommit (group : Nat) (body : Bytes) (s : State) : Host.Outcome State Fault Refusal :=
  done s (mgmtMsg group (fun s => s.swapCommitIn body) s)

/-- The role of a module that takes its group's crown: the top crown's, when the job spans several groups, in the group of rank 0
(R329; DEDUCED, notes/assumptions/29.md). -/
def State.crownRole (s : State) : Nat := if s.groupSize < s.jobSize ∧ s.rank < s.groupSize then 3 else 2

/-- This module holds the crown from a tick, and tells the others. -/
def State.takeCrown (s : State) (from_ : Nat) : State :=
  let s1 := (s.setRole s.crownRole).onBoard (fun b =>
    (b.setFld Pg.role F.roleCrownCurrent s.rack).setFld Pg.tk F.tkStatusGroupLocked 1)
  (s1.onCrown (fun c => { c with follows := false, moveTo := none, lost := false, deputyLost := false, syncLost := 0 })).toChildren 1 0x16
    (bodyOf 32 [(0, 2, s.rack), (8, 8, from_)])

/-- The target boundary of a handover: the candidate holds the crown and announces it, the old crown becomes a worker. -/
def State.handoverAt (s : State) (n : Nat) : State :=
  match s.crown.swapAt with
  | some a =>
    if n < a then s
    else
      let s1 := ((s.onCrown (fun c => { c with swapAt := none, candidate := false })).setSwap 0 false).onBoard (fun b => b.inc Pg.role Cn.roleHandovers 1)
      if s.crown.candidate then s1.takeCrown a
      else ((s1.setRole 1).onBoard (fun b => b.setFld Pg.role F.roleCrownCurrent s.crown.swapRack)).onCrown (fun c => { c with syncLost := 0 })
  | none => s

/-- HANDOVER_TAKE_EFFECT (R342): the grid point that comes is the target; roles do not wait for compute (R327). -/
def execHandoverTakeEffect (s : State) : Host.Outcome State Fault Refusal :=
  done s (if s.gridRuns then s.handoverAt (s.crown.tick + 1) else s)

/-- A CROWN_ANNOUNCE: the tree roots at the new crown, which a module that held the crown no longer is. -/
def State.announceIn (s : State) (g : Nat) (body : Bytes) : State :=
  let rack := leAt body 0 2 % 4096
  let s1 := (s.onBoard (fun b => b.setFld Pg.role F.roleCrownCurrent rack)).onCrown (fun c => { c with lost := false, deputyLost := false, syncLost := 0 })
  let s2 := if s.isCrown ∧ rack ≠ s.rack ∧ s.role = s1.crownRole then s1.setRole 1 else s1
  s2.toChildrenBut (some g) 1 0x16 body

/-- CROWN_ANNOUNCE (R331). -/
def execCrownAnnounce (group : Nat) (body : Bytes) (s : State) : Host.Outcome State Fault Refusal :=
  done s (mgmtMsg group (fun s => s.announceIn group body) s)

/-- ROLE.CMD.SWAP_REQ: sent to TARGET, no earlier than one tick after a ROLE_CONFLICT (R342, R343). -/
def State.swapReqTo (s : State) (target : Nat) : State :=
  let early : Bool := match s.crown.conflictAt with
    | some t => decide (s.crown.tick < t + 1)
    | none => false
  if s.role = 0 ∨ s.board.flag Pg.role F.roleStatusHandover ∨ early then s
  else
    ((s.onCrown (fun c => { c with swapRack := target, candidate := false, swapAt := none })).setSwap 1 false).toRack target 1 0x12
      (bodyOf 32 [(0, 2, s.rack), (2, 1, if s.isCrown then 1 else 2), (4, 8, s.groupTime)])

/-! ### Loss of the crown (R344) -/

/-- ROLE.DEPUTY. -/
def State.deputyRack (s : State) : Nat := s.board.fld Pg.role F.roleDeputyRack
def State.lossTicks (s : State) : Nat := s.board.fld Pg.role F.roleDeputyLossTicks

/-- CROWN_LOST (R344): LOSS_TICKS grid points in a row without a SYNC; the deputy takes the crown and aborts the current step. -/
def execCrownLost (s : State) : Host.Outcome State Fault Refusal :=
  done s (
    if !s.isFollower || s.crown.lost || decide (s.crown.syncLost < s.lossTicks) then s
    else
      let s1 := (s.onCrown (fun c => { c with lost := true, syncLost := 0 })).onBoard (fun b =>
        (b.inc Pg.role Cn.roleCrownLosses 1).raise Pg.role F.roleEventCrownLost)
      if s.deputyRack ≠ s.rack then s1
      else
        let s2 := s1.takeCrown (s.crown.tick + 1)
        ((List.range 16).filterMap s2.runningCtx).foldl (fun s n => s.decideAbort (s.stepOf n) 4) s2)

/-- DEPUTY_LOST (R344): LOSS_TICKS grid points more without a SYNC from the deputy. -/
def execDeputyLost (s : State) : Host.Outcome State Fault Refusal :=
  done s (if s.isFollower && s.crown.lost && decide (s.lossTicks ≤ s.crown.syncLost) then s.onCrown (fun c => { c with deputyLost := true }) else s)

/-! ### SNAPSHOT and GROUP_RESET (R337, R441) -/

/-- SNAPSHOT: passed down and due at its target tick. -/
def State.snapshotIn (s : State) (body : Bytes) : State :=
  if s.quiet then s else (s.toChildren 0 0x07 body).onCrown (fun c => { c with snaps := c.snaps ++ [leAt body 8 8] })

/-- SNAPSHOT (R441). -/
def execSnapshot (body : Bytes) (s : State) : Host.Outcome State Fault Refusal := done s (s.snapshotIn body)

/-- GROUP_RESET: passed down and due at its target tick, where the module performs a compute reset. -/
def State.groupResetIn (s : State) (body : Bytes) : State :=
  if s.quiet then s else (s.toChildren 0 0x08 body).onCrown (fun c => { c with resets := c.resets ++ [leAt body 8 8] })

/-- GROUP_RESET (R337). -/
def execGroupReset (body : Bytes) (s : State) : Host.Outcome State Fault Refusal := done s (s.groupResetIn body)

end Sys2Proof.Machine
end

