-- ==== Sys2Proof/Machine/Nolino.lean ====
section
/-! DEFINITION. The receiving side of the hatband: messages and flits (10_hatband_and_nolino: R290 to R300, R307). -/
namespace Sys2Proof.Machine

/-! ### Messages (R288, R299, R300, R307) -/

/-- A reserved SUBKIND is discarded and counted. -/
def State.badSub (s : State) (g : Nat) : State := s.onBoard (fun b => b.inc (Pg.nol g) Cn.nolRoleDiscards 1)

/-- A TICK message (R336). -/
def State.tickIn (s : State) (g sub : Nat) (body : Bytes) : State :=
  match sub with
  | 0x01 => (s.syncIn body s.board.gtc).syncTk
  | 0x02 => s.delayReqIn g body
  | 0x03 => s.delayRespIn body
  | 0x04 => s.arriveIn g body
  | 0x05 => s.releaseIn g body
  | 0x06 => s.abortIn g body
  | 0x07 => s.snapshotIn body
  | 0x08 => s.groupResetIn body
  | _ => s.badSub g

/-- A MGMT message (R300, R341). -/
def State.mgmtIn (s : State) (g sub : Nat) (body : Bytes) : State :=
  match sub with
  | 0x01 => s.offerIn g body
  | 0x02 => s.acceptIn g body
  | 0x03 => s.refuseIn g body
  | 0x04 => if s.board.session g = Ses.none then s else s.closeSession g
  | 0x05 => s.farLoopIn g body
  | 0x10 => s.remapIn g body
  | 0x11 => s.slowIn body
  | 0x12 => s.swapReqIn body
  | 0x13 => s.swapAcceptIn body
  | 0x14 => s.swapRefuseIn body
  | 0x15 => s.swapCommitIn body
  | 0x16 => s.announceIn g body
  | 0x20 => s.noticeIn 0x20 body (fun s => s.battNotice body)
  | 0x21 => s.noticeIn 0x21 body (fun s => s.missNotice body)
  | _ => s.badSub g

/-- A BATT message: a batt, a control body, of which a module takes NAK, or an RDATA (R236, R495). -/
def State.battMsg (s : State) (g sub : Nat) (body : Bytes) : State :=
  match sub with
  | 0 => (s.battIn (slice body 0 64)).battEnd (s.partOf (BattHdr.ofBytes body).ctx) (BattHdr.ofBytes body).index (body.drop 64)
  | 1 => if leAt body 0 1 = 3 then s.nakIn body else s
  | 3 => s.rdataIn body
  | _ => s.badSub g

/-- A message that has arrived acts as its class and SUBKIND say. -/
def State.act (s : State) (g cls sub : Nat) (body : Bytes) : State :=
  match cls with
  | 0 => s.tickIn g sub body
  | 1 => s.mgmtIn g sub body
  | 2 => s.battMsg g sub body
  | 3 => if sub = 0 then s.fullIn body else s.badSub g
  | 4 => if sub = 0 then s.peerIn g body else s.badSub g
  | _ => s

/-- Where a GMSN lies in a class's window: its distance above the lowest number not yet delivered, modulo 2^32. -/
def Group.offset (x : Group) (cls gmsn : Nat) : Nat := (gmsn % 2 ^ 32 + 2 ^ 32 - x.rxLow.getD cls 0 % 2 ^ 32) % 2 ^ 32

/-- The lowest number not yet delivered, and the ones seen above it, moved up past those seen. -/
def moveLow : Nat → Nat → List Nat → Nat × List Nat
  | 0, low, seen => (low, seen)
  | k + 1, low, seen => if seen.contains low then moveLow k (low + 1) (seen.filter (fun n => !(n == low))) else (low, seen)

/-- A GMSN is recorded as delivered. -/
def Group.deliver (x : Group) (cls gmsn : Nat) : Group :=
  let n := x.rxLow.getD cls 0 + x.offset cls gmsn
  let seen := x.rxSeen.getD cls [] ++ [n]
  let r := moveLow seen.length (x.rxLow.getD cls 0) seen
  { x with rxLow := putAt x.rxLow cls r.1, rxSeen := putAt x.rxSeen cls r.2 }

/-- A complete message of a group (R299): a number delivered before, or below the window, is a duplicate; one beyond the window has no
place in the bitmap and is left (no sender sends it). An OFFER opens the numbers anew (DEDUCED, notes/assumptions/30.md). -/
def State.messageIn (s : State) (g cls gmsn sub : Nat) (body : Bytes) : State :=
  let x := s.group g
  let off := x.offset cls gmsn
  let n := x.rxLow.getD cls 0 + off
  if 4 < cls then s
  else if cls = 1 ∧ sub = 1 then (s.onBoard (fun b => b.inc (Pg.nol g) Cn.nolMsgsRx 1)).act g 1 1 body
  else if 2 ^ 31 ≤ off ∨ (x.rxSeen.getD cls []).contains n = true then s.onBoard (fun b => b.inc (Pg.nol g) Cn.nolMsgDuplicates 1)
  else if 4096 < off then s
  else
    let s1 := (s.setGroup g (x.deliver cls gmsn)).onBoard (fun b => b.inc (Pg.nol g) Cn.nolMsgsRx 1)
    s1.arrives g cls (fun s => s.act g cls sub body)

/-- MESSAGE_RECEIVE (R299). -/
def execMessageReceive (group cls gmsn subkind : Nat) (body : Bytes) (s : State) : Host.Outcome State Fault Refusal :=
  done s (s.messageIn group cls gmsn subkind body)

/-! ### Flits (R289 to R294, R297, R298) -/

/-- The ACK of a flit releases the flits it covers, and the messages whose EOM flit is among them. -/
def State.takeAck (s : State) (e ack : Nat) : State :=
  let x := s.engine e
  let cov := x.replay.filter (fun p => decide (0 < (ack + 65536 - p.1) % 65536) && decide ((ack + 65536 - p.1) % 65536 ≤ 32768))
  let s1 := s.setEngine e { x with replay := x.replay.filter (fun p => !cov.contains p) }
  let g := e / 4
  let y := s1.group g
  s1.setGroup g { y with unacked := y.unacked.filter (fun m =>
    !(m.engine == e && cov.any (fun p => p.2.eom && p.2.cls == m.cls && p.2.gmsn == m.gmsn))) }

/-- Messages that waited for the window of R299 go as far as it lets them. -/
def State.sendWaiting (s : State) (g : Nat) : State :=
  let x := s.group g
  x.waiting.foldl (fun s w => s.transmit g w.1 w.2.1 w.2.2) (s.setGroup g { x with waiting := [] })

/-- The credit of a flit. -/
def State.takeCredit (s : State) (e cls count : Nat) : State :=
  if 4 < cls then s else s.setEngine e { s.engine e with granted := putAt (s.engine e).granted cls count }

/-- REPLAY_REQ is set in the next flit sent, once (R293). -/
def State.askReplay (s : State) (e : Nat) : State :=
  if (s.engine e).asked then s else (s.setEngine e { s.engine e with asked := true }).sendIdle e true

/-- The flit at the expected SEQ goes to the message layer; the last one of a message completes it. -/
def State.deliverFlit (s : State) (e cls : Nat) (som eom : Bool) (payload : Bytes) : State :=
  let x := s.engine e
  let x1 := { x with rxSeq := (x.rxSeq + 1) % 65536, asked := false, replayFails := 0, swapped := false, freed := bumpAt x.freed cls }
  let s1 := s.onBoard (fun b => b.inc (Pg.hb e) Cn.hbRxFlits 1)
  if 4 < cls then s1.setEngine e x1
  else
    let old := if som then [] else Tbl.get (fun _ => ([] : Bytes)) x1.partials cls
    let bs := old ++ payload
    if !eom then s1.setEngine e { x1 with partials := Tbl.set (fun _ => ([] : Bytes)) x1.partials cls bs }
    else
      (s1.setEngine e { x1 with partials := Tbl.set (fun _ => ([] : Bytes)) x1.partials cls [] }).messageIn (e / 4) cls (leAt bs 0 4) (leAt bs 8 1)
        ((bs.drop 16).take (leAt bs 4 4))

/-- What an intact flit does (R289, R293, R294, R297). -/
def State.flitIn (s : State) (e : Nat) (flit : Bytes) : State :=
  let h := leAt flit 0 12
  let kind := bitsOf h 1 0
  let seq := bitsOf h 31 16
  let ack := bitsOf h 47 32
  let s1 := ((s.takeAck e ack).takeCredit e (bitsOf h 50 48) (bitsOf h 63 52)).sendWaiting (e / 4)
  let s2 := s1.pump e
  let s3 := if h.testBit 2 then s2.replayFrom e ack else s2
  if kind ≠ 2 then s3
  else
    let behind := ((s3.engine e).rxSeq + 65536 - seq) % 65536
    if behind = 0 then s3.deliverFlit e (bitsOf h 6 4) (h.testBit 7) (h.testBit 8) ((flit.drop 16).take (16 * bitsOf h 12 9))
    else if behind ≤ 32768 then s3.onBoard (fun b => b.inc (Pg.hb e) Cn.hbRxDuplicates 1)
    else s3.askReplay e

/-- FLIT_RECEIVE (R293). How many symbols its lanes corrected and how many codewords they could not is open
(notes/assumptions/2.md). An engine that loops for the far end returns the flit (R312). -/
def execFlitReceive (engine : Nat) (flit : Bytes) (s : State) : Host.Outcome State Fault Refusal :=
  done s (
    let (k, s1) := s.freeNat
    let (j, s2) := s1.freeNat
    let s3 := s2.onBoard (fun b => (b.inc (Pg.hb engine) Cn.hbFecCorrected k).inc (Pg.hb engine) Cn.hbFecUncorrectable j)
    let v := s.board.engState engine
    let local_ := s.board.fld (Pg.hb engine) F.hbControlLoopback ≠ 0 ∨ s.board.fld (Pg.hb engine) F.hbControlFarLoop ≠ 0
    if v = Eng.loopback ∧ ¬local_ then s3.onBoard (fun b => b.emit (.flit engine flit))
    else if v ≠ Eng.up then s
    else if flit.length ≠ 256 ∨ crc32c (flit.take 12 ++ flit.drop 16) ≠ leAt flit 12 4 then
      (s3.onBoard (fun b => b.inc (Pg.hb engine) Cn.hbRxCrcFails 1)).askReplay engine
    else s3.flitIn engine flit)

end Sys2Proof.Machine
end

