-- ==== Sys2Proof/Machine/Domains.lean ====
section
/-! DEFINITION. Power domains as they switch (13_power: R368, R369; 16: R466, R467), FAULTED (R393), the flush of a crossing
(12_clock: R360 to R362) and the owner of the module (15_management: R433). -/
namespace Sys2Proof.Machine

/-! ### Domains (R368, R369) -/

/-- The pages of a switched domain, by its slot. -/
def domainPages (d : Nat) : List Nat :=
  if d = 0 then (List.range 96).map Pg.drm
  else if d = 1 then
    [Pg.tk, Pg.role] ++ (List.range 17).map (Pg.opq0 + ·) ++ [Pg.mem, Pg.fabSpine, Pg.crdGlobal, Pg.hbGlobal, Pg.clk]
  else if d = 2 then []
  else if d = 3 then [Pg.shf]
  else if d < 28 then [Pg.slc (d - 4), Pg.fabTile (d - 4), Pg.crdTile (d - 4)]
  else if d < 124 then [Pg.core (d - 28), Pg.spx (d - 28)]
  else [Pg.ful (d - 124)] ++ (List.range 3).map (fun i => Pg.nol (3 * (d - 124) + i)) ++ (List.range 12).map (fun i => Pg.hb (12 * (d - 124) + i))

/-- Every register and counter of a page at its reset value (R466, R467). -/
def Board.blankPage (b : Board) (p : Nat) : Board :=
  let b1 := (b.resetPage p).resetCounters p
  { b1 with evCls := Tbl.clearRange b1.evCls (p * 16) (p * 16 + 16) }

/-- The registers that show which domains are on. -/
def State.syncDomain (s : State) (d : Nat) (on : Bool) : State :=
  s.onBoard (fun b =>
    let put := fun (b : Board) (page : Nat) (f : Fld) (i : Nat) =>
      b.setFld page f (if on then setBit (b.fld page f) i else clearBit (b.fld page f) i)
    if d = 1 then b.setFld Pg.fabSpine F.fabSpineStatusNorthOn (b2n on)
    else if d = 2 then b.setFld Pg.fabSpine F.fabSpineStatusSouthOn (b2n on)
    else if d < 4 then b
    else if d < 28 then put b (Pg.pwrTile (d - 4)) F.pwrTileStatusDomainsOn 4
    else if d < 124 then (put b (Pg.pwrTile ((d - 28) / 4)) F.pwrTileStatusDomainsOn ((d - 28) % 4)).setFld (Pg.core (d - 28)) F.coreStatusPowered (b2n on)
    else put b Pg.hbGlobal F.hbGlobalStatusQuadOn (d - 124))

/-- The page, queue and frame state of tier 0 and tier 1, without what the shelf and the weight servers hold. -/
def Tier.dark (t : Tier) : Tier := { Tier.reset with retired0 := t.retired0, retired1 := t.retired1, hoods := t.hoods, remote := t.remote }

/-- What a domain held is lost with its power; its pages read as their reset values. -/
def State.loseDomain (s : State) (d : Nat) : State :=
  let s1 := s.onBoard (fun b => (domainPages d).foldl Board.blankPage b)
  if d = 1 then
    { s1 with ctxs := [], parts := [], feeds := [], crown := Crown.reset, fab := State.reset.fab,
              net := { s1.net with rreads := [], turn := [] } }
  else if d = 3 then { s1 with tier := { s1.tier with loads := [] } }
  else if 4 ≤ d ∧ d < 28 then
    { s1 with tier := s1.tier.dark, mem := memClear s1.mem Lay.windowsEnd (2 ^ 52),
              board := { s1.board with traces := Tbl.set noTrace s1.board.traces (d - 4) (noTrace 0) } }
  else if 28 ≤ d ∧ d < 124 then
    { s1 with cores := Tbl.set (fun _ => Core.init) s1.cores (d - 28) Core.init,
              mem := memClear s1.mem ((d - 28) * Lay.window) ((d - 28 + 1) * Lay.window) }
  else if 124 ≤ d then
    let q := d - 124
    { s1 with net := { s1.net with engines := s1.net.engines.filter (fun e => !(e.1 / 12 == q)), groups := s1.net.groups.filter (fun g => !(g.1 / 3 == q)) },
              trees := s1.trees.filter (fun t => !(treePage t.1 == Pg.ful q)) }
  else s1

/-- A domain switches off: RESET_NOTIFY across its crossings first (R360, R369). -/
def State.switchOff (s : State) (d : Nat) : State :=
  if !s.board.on.contains d then s
  else
    let s1 := (s.notify (domSide d)).loseDomain d
    ({ s1 with board := { s1.board with on := s1.board.on.filter (fun x => x ≠ d) } }).syncDomain d false

/-- A domain switches on with its pages at their reset values, out of reset. -/
def State.switchOn (s : State) (d : Nat) : State :=
  if s.board.on.contains d then s
  else
    let s1 := s.loseDomain d
    { s1 with board := { s1.board with on := s1.board.on ++ [d] }
              clk := { s1.clk with inReset := s1.clk.inReset.erase (domSide d) } }.syncDomain d true

/-- Slots of R369. -/
def coreSlots : List Nat := (List.range 96).map (· + 28)
def quadSlots : List Nat := [124, 125, 126, 127]
def fabricSlots : List Nat := (List.range 24).map (· + 4)

/-- Switches off in the reverse order of R369. -/
def State.allOff (s : State) : State := ((List.range 128).reverse).foldl State.switchOff s

/-- Every domain loses its power at once, in hardware: nothing is sent (R376). -/
def State.cutPower (s : State) : State :=
  let s1 := s.board.on.foldl State.loseDomain s
  { s1 with board := { s1.board with on := [] } }

/-! ### The shelf's share of a fault or a flush (R380 steps 4 and 6) -/

/-- The shelf programs the staged log records and field-defect entries (R402, R443). -/
def State.drainLogs (s : State) : State :=
  ({ s with store := { s.store with fieldLog := s.store.fieldLog ++ s.store.fieldStaged, fieldStaged := [] } }).onBoard Board.programLog

/-- FAULTED: no stage runs and SERVICE no longer waits (R393). -/
def State.enterFaulted (s : State) : State :=
  let s1 : State := { s with bup := { s.bup with toService := false, resetPending := false, heldAbort := false } }
  s1.onBoard (fun b => (b.setFld Pg.bup F.bupStatusStage 0).setState St.faulted)

/-- A module whose wafer domains are powered and that is not FAULTED. -/
def State.alive (s : State) : Bool := decide (St.sequencing ≤ s.board.st) && decide (s.board.st ≤ St.computeReset)

/-- Lock is lost (R352, R393): class C, FAULTED; the shelf's programming and the switching off follow with the drain. -/
def State.loseLock (s : State) : State :=
  (s.onBoard (fun b => (b.raise Pg.clk F.clkEventLockLost).setFld Pg.clk F.clkStatusMeshLocked 0)).enterFaulted

/-! ### Ownership (R433, R435, R478) -/

/-- A change of owner: vector 0 to the new owner when a page is pending, OWNER_CHANGED and its vector on both links. -/
def Board.setOwner (b : Board) (v : Nat) : Board :=
  if b.fld Pg.tel F.telStatusOwner = v then b
  else
    let b1 := (b.setFld Pg.tel F.telStatusOwner v).inc Pg.tel Cn.telOwnerChanges 1
    let b2 := match b1.owner with
      | some l => if b1.anyPending then { b1.signalOn l 0 with holding := decide (b1.fld Pg.evt F.evtHoldoffUs ≠ 0), heldBack := false } else b1
      | none => b1
    (b2.raise Pg.tel F.telEventOwnerChanged).signalBoth

/-- A link's function is reset: its MSI-X table, its read latches and its ownership (R433, R457, R467). -/
def Board.dropLink (b : Board) (l : Nat) : Board :=
  let clear := fun (b : Board) => { b with msix := Tbl.clearRange b.msix (l * 2048) (l * 2048 + 2048), latch := Tbl.clearRange b.latch (l * 2 ^ 20) ((l + 1) * 2 ^ 20) }
  let b1 := clear b
  if b1.owner == some l then clear (b1.setOwner 0) else b1

/-- The same, with the link's BAR2 accesses that wait for another module. -/
def State.dropLink (s : State) (l : Nat) : State :=
  ({ s with mgmt := { s.mgmt with remote := s.mgmt.remote.filter (fun w => w.link ≠ l) } }).onBoard (fun b => b.dropLink l)

/-! ### The flush of a crossing (R360 to R362) -/

/-- Read tags of a requester, as a range (R219), and its write port (R204), by resetting side. -/
def sideTags (side : Nat) : Nat × Nat :=
  if 200 ≤ side ∧ side < 248 then (0xC000 + 320 * (side - 200), 0xC000 + 320 * (side - 199))
  else if side = 300 then (0xFE00, 0xFF00)
  else if side = 301 then (0xFF00, 0x10000)
  else if 524 ≤ side ∧ side < 528 then (0xC000 + 3840 * (side - 524), 0xC000 + 3840 * (side - 523))
  else (0, 0)
def sidePort (side w : Nat) : Bool :=
  if side = 300 ∨ side = 301 then w == 0x450 + (side - 300)
  else if 428 ≤ side ∧ side < 524 then w == side - 428
  else if 524 ≤ side ∧ side < 528 then w == 0x440 + (side - 524)
  else side == computeSide && decide (w < 0x60)

/-- The state that the live side held for the resetting side is cleared (R362). -/
def State.clearSide (s : State) (side : Nat) : State :=
  let r := sideTags side
  { s with fab := { s.fab with tags := s.fab.tags.filter (fun t => decide (t < r.1) || decide (r.2 ≤ t)), writes := s.fab.writes.filter (fun w => !sidePort side w.1) } }

/-- A side of R360 by its code. -/
def sideKnown (k : Nat) : Bool :=
  decide (k < 48) || (decide (100 ≤ k) && decide (k < 196)) || (decide (200 ≤ k) && decide (k < 248)) || k == 300 || k == 301 || k == 310 || k == 311 ||
    (decide (400 ≤ k) && decide (k < 528)) || k == computeSide

/-- KIND and INSTANCE of CLK.LAST_FAULT for a stopped or resetting clock (R364). -/
def sideFault (side : Nat) : Option (Nat × Nat) :=
  if side < 48 then some (6, side)
  else if 100 ≤ side ∧ side < 196 then some (2, side - 100)
  else if 200 ≤ side ∧ side < 248 then some (3, side - 200)
  else if side = 300 ∨ side = 301 then some (4, side - 300)
  else if side = 310 then some (5, 0)
  else if side = 311 then some (1, 0)
  else none

/-- Records a crossing in LAST_FAULT; which crossing a domain or a compute reset shows is open (notes/assumptions/31.md). -/
def State.lastFault (s : State) (side cause : Nat) : State :=
  let (k, i, s1) := match sideFault side with
    | some p => (p.1, p.2, s)
    | none =>
      let (a, s1) := s.freeNat
      let (b, s2) := s1.freeNat
      (a, b, s2)
  s1.onBoard (fun b => b.setFlds Pg.clk [(F.clkLastFaultKind, k), (F.clkLastFaultInstance, i), (F.clkLastFaultCause, cause)])

/-- The live side flushes the crossing and returns FLUSH_DONE (R360 steps 2 and 3). How many partial bursts stood in the crossing is
open. -/
def State.flushSide (s : State) (side : Nat) : State :=
  let (k, s1) := (s.clearSide side).freeNat
  s1.onBoard (fun b => (((b.inc Pg.clk Cn.clkBurstsDiscarded k).emit (.crossing side true)).raise Pg.clk F.clkEventResetFlush).inc Pg.clk Cn.clkResetFlushes 1)

end Sys2Proof.Machine
end

