-- ==== Sys2Proof/Machine/Clock.lean ====
section
/-! DEFINITION. The oscillator mesh and the domain crossings (12_clock_mesh: R350 to R365; 14: R393). -/
namespace Sys2Proof.Machine

/-! ### The mesh (R352) -/

/-- The mesh locks in CALIBRATING, within 100 ms of switch-on: every GTC copy starts at 0. -/
def State.locks (s : State) (us : Nat) : State :=
  if s.board.st ≠ St.calibrating ∨ s.board.meshLocked then s
  else if us > 100000 then s.loseLock
  else
    let s1 : State := { s with board := { s.board with gtc := 0 }, clk := { s.clk with stepEnd := 0 } }
    s1.onBoard (fun b => b.setFlds Pg.clk [(F.clkStatusMeshLocked, 1), (F.clkLockTimeUs, us), (F.clkOscLockedLoOsc, 2 ^ 32 - 1), (F.clkOscLockedHiOsc, 2 ^ 16 - 1)])

/-- MESH_LOCK (R352). -/
def execMeshLock (us : Nat) (s : State) : Host.Outcome State Fault Refusal := done s (s.locks us)

/-- An oscillator no longer counts as locked (R364). -/
def State.oscOut (s : State) (o : Nat) : State :=
  s.onBoard (fun b =>
    if o < 32 then b.setFld Pg.clk F.clkOscLockedLoOsc (clearBit (b.fld Pg.clk F.clkOscLockedLoOsc) o)
    else if o < 48 then b.setFld Pg.clk F.clkOscLockedHiOsc (clearBit (b.fld Pg.clk F.clkOscLockedHiOsc) (o - 32))
    else b)

/-- LOCK_LOST (R352). -/
def execLockLost (osc : Nat) (s : State) : Host.Outcome State Fault Refusal :=
  done s (if s.alive && s.powered Pg.clk then (s.oscOut osc).loseLock else s)

/-- PHASE_LIMIT (R352): the largest neighbour error of a tick is shown; above 25 ps it sets PHASE_LIMIT, above 100 ps lock is lost. -/
def execPhaseLimit (ps : Nat) (s : State) : Host.Outcome State Fault Refusal :=
  done s (
    if !s.alive || !s.board.meshLocked then s
    else
      let s1 := s.onBoard (fun b => b.setFld Pg.clk F.clkPhaseMaxPs (min 255 ps))
      let s2 := if 25 < ps then s1.onBoard (fun b => (b.inc Pg.clk Cn.clkPhaseLimitTicks 1).raise Pg.clk F.clkEventPhaseLimit) else s1
      if 100 < ps then s2.loseLock else s2)

/-! ### Crossings (R356, R359, R360) -/

/-- FIFO_OVERRUN (R356): class A on a path with link replay, else class B. -/
def execFifoOverrun (kind inst : Nat) (replayed : Bool) (s : State) : Host.Outcome State Fault Refusal :=
  done s (
    if !s.powered Pg.clk then s
    else
      let s1 := s.onBoard (fun b =>
        ((b.inc Pg.clk Cn.clkFifoOverruns 1).setFlds Pg.clk [(F.clkLastFaultKind, kind), (F.clkLastFaultInstance, inst), (F.clkLastFaultCause, 2)]).raiseAs
          Pg.clk F.clkEventFifoOverrun.lsb (if replayed then .a else .b))
      if replayed then s1 else s1.reportModule)

/-- The class of a stopped clock (R359). -/
def clockClass : Clock → FClass
  | .lane _ => .a
  | .pcie _ => .a
  | _ => .c

/-- A clock that the wafer has. -/
def clockOk : Clock → Bool
  | .osc o => decide (o < 48)
  | .dclk k => decide (k < 96)
  | .lane e => decide (e < 48)
  | _ => true

/-- A CDC_TIMEOUT is counted, shown and recorded. -/
def State.cdcCount (s : State) (c : Clock) : State :=
  (s.onBoard (fun b => (b.inc Pg.clk Cn.clkCdcTimeouts 1).raiseAs Pg.clk F.clkEventCdcTimeout.lsb (clockClass c))).lastFault (clockCode c) 1

/-- A class C CDC_TIMEOUT leads to HELD, in SERVICE at once (R393). -/
def State.cdcHeld (s : State) : State :=
  let s1 := s.onBoard (fun b => b.addCause Hc.classC)
  if s1.inService then s1.enterHeld else s1

/-- What a stopped clock brings with it (R359). -/
def State.clockStops (s : State) : Clock → State
  | .osc o => (s.oscOut o).loseLock
  | .dclk k => (List.range 32).foldl (fun s i => s.channelDown (32 * k + i)) s.cdcHeld
  | .lane e => if s.board.engState e = Eng.up ∨ s.board.engState e = Eng.training ∨ s.board.engState e = Eng.loopback then s.goDown e else s
  | .pcie l => s.dropLink (linkIdx l)
  | .shclk => s.cdcHeld.failLoads
  | .aclk => (coreSlots.foldl State.switchOff s).enterFaulted

/-- CDC_TIMEOUT (R359). A side that is in reset and gets no FLUSH_DONE within 256 of its cycles leaves reset with a CDC_TIMEOUT
(R360 step 4). -/
def execCdcTimeout (clock : Clock) (s : State) : Host.Outcome State Fault Refusal :=
  done s (
    let k := clockCode clock
    if !clockOk clock || !s.alive || !s.powered Pg.clk || s.clk.stopped.contains k then s
    else if s.clk.inReset.contains k then { s.cdcCount clock with clk := { s.clk with inReset := s.clk.inReset.erase k } }
    else
      let s1 := (s.flushSide k).cdcCount clock
      ({ s1 with clk := { s1.clk with stopped := s1.clk.stopped ++ [k] } }).clockStops clock)

/-- RESET_NOTIFY (R360): the live side flushes the crossing. -/
def execResetNotify (side : Nat) (s : State) : Host.Outcome State Fault Refusal :=
  done s (if sideKnown side && s.powered Pg.clk then (s.lastFault side 3).flushSide side else s)

/-- FLUSH_DONE (R360): the resetting side leaves reset. -/
def execFlushDone (side : Nat) (s : State) : Host.Outcome State Fault Refusal :=
  done s { s with clk := { s.clk with inReset := s.clk.inReset.erase side } }

/-! ### FAULTED (R393) -/

/-- ACLK_RETURN (R393): the control processor restarts in FAULTED. -/
def execAclkReturn (s : State) : Host.Outcome State Fault Refusal :=
  done s (
    if !s.aclkStopped then s
    else ({ s with clk := { s.clk with stopped := s.clk.stopped.erase (clockCode .aclk) } }).enterFaulted)

/-- FAULT_DRAIN_COMPLETE (R393): the shelf has programmed everything; every switched domain goes off and the module is FAULTED. -/
def execFaultDrainComplete (s : State) : Host.Outcome State Fault Refusal :=
  done s (
    if s.board.st = St.faulted ∨ (s.alive = true ∧ s.board.flag Pg.thm F.thmStatusTripped = true ∧
        s.board.flag Pg.pwr F.pwrGlobalStatusFlushing = false) then s.drainLogs.allOff.enterFaulted else s)

end Sys2Proof.Machine
end

