-- ==== Sys2Proof/Machine/Power.lean ====
section
/-! DEFINITION. Power, hold-up and cooling (13_power_holdup_cooling: R366 to R390; 17: R490). -/
namespace Sys2Proof.Machine

/-! ### Fuses (R412) -/

/-- MULT_MAX, CAP_W10, GROUPS and CORE_FLOOR of a variant. -/
def fuseMult (v : Nat) : Nat := if v = 0 then 25 else if v = 1 then 22 else 19
def fuseCap (v : Nat) : Nat := if v = 0 then 2700 else if v = 1 then 2000 else 1400
def fuseGroups (v : Nat) : Nat := if v = 0 then 12 else if v = 1 then 8 else 6
def fuseFloor (v : Nat) : Nat := if v = 0 then 88 else if v = 1 then 80 else 64

/-! ### Caps (R372, R374) -/

/-- The six cap sources, in the order of their SOURCE codes. -/
def State.capSources (s : State) : List Nat :=
  [fuseCap s.store.variant, s.board.fld Pg.pwr F.pwrGlobalCapLocalW10, s.board.fld Pg.pwr F.pwrGlobalCapMgmtW10,
   s.board.fld Pg.pwr F.pwrGlobalCapPmbusW10, s.pwr.capThermal, s.pwr.capUnder]

/-- The lowest nonzero source, with its code; of equal ones the lower code (DEDUCED, notes/assumptions/32.md). -/
def lowestCap : List Nat → Nat → Nat × Nat → Nat × Nat
  | [], _, best => best
  | v :: rest, i, best => lowestCap rest (i + 1) (if v ≠ 0 ∧ (best.1 = 0 ∨ v < best.1) then (v, i) else best)

/-- Recomputes the effective cap; a change sets CAP_CHANGED and is counted. -/
def State.applyCaps (s : State) : State :=
  let e := lowestCap s.capSources 0 (0, 0)
  s.onBoard (fun b =>
    let old := b.fld Pg.pwr F.pwrGlobalCapEffectiveW10
    let b1 := b.setFlds Pg.pwr [(F.pwrGlobalCapEffectiveW10, e.1), (F.pwrGlobalCapEffectiveSource, e.2)]
    if old = e.1 then b1 else (b1.inc Pg.pwr Cn.pwrGlobalCapChanges 1).raise Pg.pwr F.pwrGlobalEventCapChanged)

/-- A cap that arrives takes effect; during a flush it is discarded (R381). -/
def State.setCap (s : State) (f : Fld) (v : Nat) : State :=
  if s.board.flag Pg.pwr F.pwrGlobalStatusFlushing then s else (s.onBoard (fun b => b.setFld Pg.pwr f v)).applyCaps

/-- CAP_LOCAL (R372): bits [31:16] are reserved. -/
def execCapLocal (link : Link) (value : Word) (s : State) : Host.Outcome State Fault Refusal :=
  done s (hostWrite link Pg.pwr 0x100 (fun s =>
    let rsv := value.toNat / 2 ^ 16 * 2 ^ 16
    let s1 := s.setCap F.pwrGlobalCapLocalW10 (value.toNat % 2 ^ 16)
    if rsv = 0 then s1 else s1.onBoard (fun b => b.levelEvt Pg.pwr 0x100 rsv (linkIdx link))) s)

/-- CAP_GATE_DEADLINE (R374): the tile controllers gate issue when the last tick's power is above a cap that no boundary has
applied. How many control periods that takes is open. -/
def execCapGateDeadline (s : State) : Host.Outcome State Fault Refusal :=
  done s (
    if !s.alive || s.pwr.capGate || decide (s.board.fld Pg.pwr F.pwrGlobalInputPowerW10 ≤ s.board.fld Pg.pwr F.pwrGlobalCapEffectiveW10) then s
    else
      let (k, s1) := s.freeNat
      { s1 with pwr := { s1.pwr with capGate := true }
                board := (List.range 24).foldl (fun b t =>
                  (b.inc (Pg.pwrTile t) Cn.pwrTileOcGatePeriods k).raise (Pg.pwrTile t) F.pwrTileEventOcGate) s1.board })

/-! ### Phases and limits (R366, R370, R371, R384) -/

/-- The tiles that own the VHB phases of a quadrant. -/
def quadTiles (q : Nat) : List Nat := if q = 0 then [1, 2] else if q = 1 then [11, 15] else if q = 2 then [21, 22] else [8, 12]

/-- The quadrant whose VHB phases 26 to 28 a tile owns. -/
def vhbQuad (t : Nat) : Option Nat := (List.range 4).find? (fun q => (quadTiles q).contains t)

/-- A phase that a tile has. -/
def phaseThere (t i : Nat) : Bool := decide (i < 26) || (decide (i < 29) && (vhbQuad t).isSome)

/-- PHASEi.STATE. -/
def Board.phase (b : Board) (t i : Nat) : Nat := b.fld (Pg.pwrTile t) (F.pwrTilePhaseState i)

/-- Phases of a list in a state. -/
def Board.phases (b : Board) (t v : Nat) (l : List Nat) : Nat := (l.filter (fun i => b.phase t i == v)).length

/-- Open VCORE phases. -/
def Board.coreOpen (b : Board) (t : Nat) : Nat := b.phases t 1 (List.range 20)

/-- LIMIT and LIMIT_A of a tile (R370): the lowest that a condition gives; 85 % for a failed sense or a sweatband drop. -/
def State.limitOf (s : State) (t : Nat) : Nat × Nat :=
  let o := s.board.coreOpen t
  if 3 ≤ o then (3, 0)
  else if o = 2 then (2, 650)
  else if 0 < s.board.phases t 2 (List.range 20) ∨ s.pwr.sweatTiles.contains t = true then (1, 1105)
  else (0, 1300)

/-- Shows the limit and the phases of a tile; a limit that rises sets LIMIT_SET. -/
def State.syncLimit (s : State) (t : Nat) : State :=
  let l := s.limitOf t
  let p := Pg.pwrTile t
  s.onBoard (fun b =>
    let old := b.fld p F.pwrTileStatusLimit
    let b1 := b.setFlds p [(F.pwrTileStatusCoreOpen, b.coreOpen t), (F.pwrTileStatusEstimated, b2n (decide (0 < b.phases t 2 (List.range 20)))),
      (F.pwrTileStatusLimit, l.1), (F.pwrTileLimitAAmps, l.2)]
    if old < l.1 then b1.raise p F.pwrTileEventLimitSet else b1)

/-- A phase group that cannot carry its design current: VSRAM 160 A on 4 phases, VDRAM 70 A on 2, VHB 340 A on 6 over two tiles, at
80 A a phase. -/
def State.groupWeak (s : State) (t i : Nat) : Bool :=
  if i < 20 then false
  else if i < 24 then decide (80 * (4 - s.board.phases t 1 [20, 21, 22, 23]) < 160)
  else if i < 26 then decide (80 * (2 - s.board.phases t 1 [24, 25]) < 70)
  else
    match vhbQuad t with
    | none => false
    | some q => decide (80 * (6 - ((quadTiles q).map (fun u => s.board.phases u 1 [26, 27, 28])).sum) < 340)

/-- The domains of a tile's four cores go off. -/
def State.tileOff (s : State) (t : Nat) : State := ([0, 1, 2, 3].map (fun k => 28 + 4 * t + k)).foldl State.switchOff s

/-- OPEN_PHASE (R370): counted, class A, logged; three open VCORE phases switch the tile's cores off, and a group below its design
current is a class C fault. -/
def execOpenPhase (tile phase : Nat) (s : State) : Host.Outcome State Fault Refusal :=
  done s (
    let p := Pg.pwrTile tile
    if !s.alive || !decide (tile < 24) || !phaseThere tile phase || s.board.phase tile phase == 1 then s
    else
      let s1 := (s.onBoard (fun b =>
        ((b.setFld p (F.pwrTilePhaseState phase) 1).inc p Cn.pwrTileOpenPhases 1).raise p F.pwrTileEventOpenPhase)).appendDefect ⟨9, 4, tile, phase + 2 ^ 16⟩
      let s2 := s1.syncLimit tile
      if phase < 20 ∧ s2.board.coreOpen tile = 3 then (s2.tileOff tile).classC p F.pwrTileEventTileOff
      else if s2.groupWeak tile phase then s2.classC p F.pwrTileEventTileOff
      else s2)

/-- SENSE_FAIL (R370), of a VCORE phase: class A, logged, 85 %. -/
def execSenseFail (tile phase : Nat) (s : State) : Host.Outcome State Fault Refusal :=
  done s (
    let p := Pg.pwrTile tile
    if !s.alive || !decide (tile < 24) || !decide (phase < 20) || !(s.board.phase tile phase == 0) then s
    else
      ((s.onBoard (fun b =>
        ((b.setFld p (F.pwrTilePhaseState phase) 2).inc p Cn.pwrTileSenseFails 1).raise p F.pwrTileEventSenseFail)).appendDefect
          ⟨9, 4, tile, phase + 2 ^ 17⟩).syncLimit tile)

/-- OC_GATE (R371). -/
def execOcGate (tile periods : Nat) (s : State) : Host.Outcome State Fault Refusal :=
  done s (
    if !s.alive || !decide (tile < 24) || periods = 0 then s
    else s.onBoard (fun b => (b.inc (Pg.pwrTile tile) Cn.pwrTileOcGatePeriods periods).raise (Pg.pwrTile tile) F.pwrTileEventOcGate))

/-- SWEAT_DROP (R384): a drop above 25 mV limits the tile until service. -/
def execSweatDrop (tile mv : Nat) (s : State) : Host.Outcome State Fault Refusal :=
  done s (
    if !s.alive || !decide (tile < 24) then s
    else
      let s1 := s.onBoard (fun b => b.setFld (Pg.pwrTile tile) F.pwrTileSweatDropMv (min 255 mv))
      if mv ≤ 25 then s1
      else
        let s2 := s1.onBoard (fun b => b.raise (Pg.pwrTile tile) F.pwrTileEventSweatDrop)
        if s2.pwr.sweatTiles.contains tile then s2
        else
          let s3 : State := { s2 with pwr := { s2.pwr with sweatTiles := s2.pwr.sweatTiles ++ [tile] } }
          (s3.appendDefect ⟨12, 4, tile, 85⟩).syncLimit tile)

/-! ### The start of a bring-up (R377, R391, R394, R395) -/

/-- Pages of the always-on domain whose counters reset at bring-up (R385, R390, R450, R451). -/
def bringupPages : List Nat := [Pg.pwr, Pg.thm, Pg.tel, Pg.trc] ++ (List.range 24).map Pg.pwrTile

/-- The EVENT bits of an always-on page as domains switch on in SEQUENCING: those that class C events have set stay (R467). -/
def Board.keepC (b : Board) (p : Nat) : Board :=
  let go := (List.range 16).filter (fun i => b.evBit p i && !decide (b.classOf p i = 3))
  let b1 := b.wr p evtOff (BitVec.ofNat 32 (go.foldl clearBit (b.rd p evtOff).toNat))
  { b1 with evCls := go.foldl (fun t i => Tbl.set (fun _ => 0) t (p * 16 + i) 0) b1.evCls }

/-- The always-on pages (R466). -/
def alwaysPages : List Nat :=
  [Pg.mod, Pg.lic, Pg.evt, Pg.pwr, Pg.thm, Pg.bup, Pg.fus, Pg.tel, Pg.trc] ++ (List.range 24).map Pg.pwrTile

/-- STANDBY to SEQUENCING: a bring-up begins. -/
def State.beginBringup (s : State) : State :=
  let full := !s.store.reached || decide (32 ≤ s.store.quickSince) || decide (65536 ≤ s.store.logCount)
  let s1 : State := { s with
    store := { s.store with reached := false, lifeBringups := s.store.lifeBringups + 1 }
    bup := { s.bup with powerOn := false, accepted := 0, served := false, resetPending := false, afterReset := false, toService := false,
                        heldAbort := false, staging := [], stagingOver := false }
    clk := { s.clk with stopped := [] }
    pwr := { s.pwr with capGate := false, warnTile := [], heatDuty := [] }
    mgmt := { s.mgmt with frameSeq := 0, prev := [], lowSlack := [], sinceFrame := 0 } }
  s1.onBoard (fun b =>
    let b1 := alwaysPages.foldl Board.keepC (bringupPages.foldl Board.resetCounters b)
    let b2 := (List.range 7).foldl (fun b i => b.setFld Pg.bup (F.bupStageMsMs i) 0) b1
    ((b2.setFlds Pg.bup [(F.bupStatusStage, 1), (F.bupStatusFullDue, b2n full), (F.bupStatusExcluded, 0), (F.bupHeldCauseCauses, 0),
      (F.bupTopoMismatchGroups, 0), (F.bupTopoMismatchRack, 0), (F.bupCfgStagedBytes, 0)]).setFld Pg.thm F.thmStatusTripped 0).inc
      Pg.bup Cn.bupBringups 1 |>.setFld Pg.pwr F.pwrGlobalOperatingDuty 16 |>.setState St.sequencing)

/-- A POWER_ON that waits for HOLDUP_READY starts. -/
def State.tryPowerOn (s : State) : State :=
  if s.bup.powerOn && decide (s.board.st = St.standby) && s.board.flag Pg.pwr F.pwrGlobalStatusHoldupReady then s.beginBringup else s

/-! ### Hold-up (R377, R378) -/

/-- GAUGE_SAMPLE (R377, R378). Both estimates are kept in units of 1/20,000,000 J for the comparison, and shown in whole joules. -/
def State.gauge (s : State) (v drawn cap : Nat) : State :=
  if s.board.st = St.off then s
  else
    let wasFull := s.pwr.wasFull || decide (4800 ≤ v)
    let ev := cap * (v * v - 3600 * 3600)
    let ec := if wasFull then cap * 10080000 - drawn * 20000000 else ev
    let bad := wasFull && decide (10 * (max ev ec - min ev ec) > max ev ec)
    let good := if bad then 0 else s.pwr.gaugeGood + 1
    let reserve := s.board.fld Pg.pwr F.pwrGlobalHoldupCfgReserve * 10 * 20000000
    let s1 : State := { s with pwr := { s.pwr with wasFull := wasFull, gaugeGood := good } }
    let s2 := s1.onBoard (fun b =>
      let b1 := b.setFlds Pg.pwr [(F.pwrGlobalHoldupGaugeEVolt, ev / 20000000), (F.pwrGlobalHoldupGaugeECoul, ec / 20000000),
        (F.pwrGlobalHoldupStateVbank10mv, v), (F.pwrGlobalHoldupStateCapMf, cap), (F.pwrGlobalStatusHoldupReady, b2n (decide (reserve ≤ min ev ec)))]
      if bad then ((b1.setFld Pg.pwr F.pwrGlobalStatusHoldupGaugeMismatch 1).inc Pg.pwr Cn.pwrGlobalGaugeMismatches 1).raise Pg.pwr F.pwrGlobalEventGaugeMismatch
      else if 1000 ≤ good then b1.setFld Pg.pwr F.pwrGlobalStatusHoldupGaugeMismatch 0
      else b1)
    s2.tryPowerOn

/-- GAUGE_SAMPLE (R377). -/
def execGaugeSample (vbank drawn cap : Nat) (s : State) : Host.Outcome State Fault Refusal := done s (s.gauge vbank drawn cap)

/-! ### Input (R379, R381) -/

/-- The input voltage, in 10 mV, and INPUT_OK above 44.0 V. -/
def Board.setVin (b : Board) (v : Nat) : Board :=
  b.setFlds Pg.pwr [(F.pwrGlobalInputVin10mv, v), (F.pwrGlobalStatusInputOk, b2n (decide (4400 < v)))]

/-- Latches bits of STATUS_WORD (R375). -/
def State.pmLatch (s : State) (bit : Nat) : State := { s with pwr := { s.pwr with pmStatus := setBit s.pwr.pmStatus bit } }

/-- INPUT_LOW (R379). -/
def execInputLow (v : Nat) (s : State) : Host.Outcome State Fault Refusal :=
  done s (
    if s.board.st = St.off ∨ v < 4200 ∨ 4600 < v then s
    else
      let s1 := (s.onBoard (fun b => ((b.setVin v).setFld Pg.pwr F.pwrGlobalStatusInputLow 1).raise Pg.pwr F.pwrGlobalEventInputLow)).pmLatch 3
      ({ s1 with pwr := { s1.pwr with capUnder := 600 * v / 1000 } }).applyCaps)

/-- INPUT_LOW_CLEAR (R379). -/
def execInputLowClear (v : Nat) (s : State) : Host.Outcome State Fault Refusal :=
  done s (
    if s.board.st = St.off ∨ v ≤ 4600 then s
    else
      let s1 := s.onBoard (fun b => (b.setVin v).setFld Pg.pwr F.pwrGlobalStatusInputLow 0)
      ({ s1 with pwr := { s1.pwr with capUnder := 0 } }).applyCaps)

/-- INPUT_LOSS (R379): the bank carries the bus. -/
def execInputLoss (v : Nat) (s : State) : Host.Outcome State Fault Refusal :=
  done s (
    if s.board.st = St.off ∨ 4200 ≤ v then s
    else
      let s1 := s.onBoard (fun b => (b.setVin v).setFld Pg.pwr F.pwrGlobalStatusRideThrough 1)
      { s1 with pwr := { s1.pwr with present := false } })

/-- INPUT_DIP (R379): the input has returned in time. -/
def execInputDip (v : Nat) (s : State) : Host.Outcome State Fault Refusal :=
  done s (
    if !s.board.flag Pg.pwr F.pwrGlobalStatusRideThrough || s.board.flag Pg.pwr F.pwrGlobalStatusFlushing || decide (v ≤ 4400) then s
    else
      let s1 := s.onBoard (fun b =>
        (((b.setVin v).setFld Pg.pwr F.pwrGlobalStatusRideThrough 0).inc Pg.pwr Cn.pwrGlobalInputDips 1).raise Pg.pwr F.pwrGlobalEventInputDip)
      { s1 with pwr := { s1.pwr with present := true } })

/-! ### The flush plan (R380) -/

/-- Step 3: each engine resends its unacknowledged flits. -/
def State.resendAll (s : State) : State :=
  (List.range 48).foldl (fun s e =>
    match (s.engine e).replay with
    | p :: _ => if s.engUp e then s.replayFrom e p.1 else s
    | [] => s) s

/-- Latches LAST_OFF on the power board. -/
def State.latchOff (s : State) (v : Nat) : State :=
  ({ s with store := { s.store with lastOff := v } }).onBoard (fun b => b.setFld Pg.pwr F.pwrGlobalStatusLastOff v)

/-- Nothing of a bring-up or a reset goes on. -/
def State.haltBringup (s : State) : State :=
  let s1 : State := { s with bup := { s.bup with powerOn := false, resetPending := false, afterReset := false, toService := false, heldAbort := false } }
  s1.onBoard (fun b => b.setFld Pg.bup F.bupStatusStage 0)

/-- Steps 1 to 5: FLUSHING and INPUT_LOSS, the domains but for the shelf's off. -/
def State.startFlush (s : State) : State :=
  let s1 := s.onBoard (fun b =>
    ((b.setFld Pg.pwr F.pwrGlobalStatusFlushing 1).inc Pg.pwr Cn.pwrGlobalInputLosses 1).raise Pg.pwr F.pwrGlobalEventInputLoss)
  let s2 := ((coreSlots ++ [0]).foldl State.switchOff s1).resendAll
  ((quadSlots ++ [2, 1] ++ fabricSlots).foldl State.switchOff s2).haltBringup

/-- FLUSH_START (R379, R380): RIDE_MS has passed, or a gauge has reached RESERVE. -/
def execFlushStart (s : State) : Host.Outcome State Fault Refusal :=
  done s (
    if s.board.flag Pg.pwr F.pwrGlobalStatusRideThrough && !s.board.flag Pg.pwr F.pwrGlobalStatusFlushing && decide (s.board.st ≠ St.off)
    then s.startFlush else s)

/-- FLUSH_COMPLETE (R380 steps 6 and 7). -/
def execFlushComplete (present : Bool) (s : State) : Host.Outcome State Fault Refusal :=
  done s (
    if !s.board.flag Pg.pwr F.pwrGlobalStatusFlushing then s
    else
      let s1 := (s.drainLogs.allOff.latchOff 2).onBoard (fun b =>
        (b.setFlds Pg.pwr [(F.pwrGlobalStatusFlushing, 0), (F.pwrGlobalStatusRideThrough, 0)]).setState (if present then St.standby else St.off))
      { s1 with pwr := { s1.pwr with present := present } })

/-- EPO (R376): every converter goes off; what the shelf has not programmed is lost. -/
def execEpo (s : State) : Host.Outcome State Fault Refusal :=
  done s (
    let s0 : State := { s with pwr := { s.pwr with epo := true } }
    if s.board.st = St.off then s0
    else
      let s1 := ((s0.cutPower.haltBringup).latchOff 3).onBoard (fun b => ({ b with toShelf := [] }).setState St.off)
      { s1 with store := { s1.store with fieldStaged := [] } })

/-- Leaving OFF: every register, counter, ring and queue of the always-on domain at its reset value (R467); the stores and the shelf's
log stay. After an input loss its EVENT bit reads 1 (R386). -/
def State.leaveOff (s : State) : State :=
  let v := s.store.variant
  let b0 : Board := { Board.reset with shelfLog := s.board.shelfLog, out := s.board.out, image := [] }
  let b1 := b0.setFlds Pg.pwr [(F.pwrGlobalStatusLastOff, s.store.lastOff), (F.pwrGlobalCapEffectiveW10, fuseCap v), (F.pwrGlobalEventInputLoss, b2n (decide (s.store.lastOff = 2)))]
  { State.reset with
    pending := s.pending, freeCtr := s.freeCtr, store := s.store, bup := { Bup.reset with merged := s.bup.merged }
    tier := { Tier.reset with hoods := s.tier.hoods, remote := s.tier.remote, nextObject := s.tier.nextObject }
    board := { b1 with evCls := Tbl.set (fun _ => 0) b1.evCls (Pg.pwr * 16 + F.pwrGlobalEventInputLoss.lsb) (if s.store.lastOff = 2 then 3 else 0) } }

/-- POWER_PRESENT (R391): 48 V is present and EPO_N is deasserted. -/
def execPowerPresent (v : Nat) (s : State) : Host.Outcome State Fault Refusal :=
  done s (
    if s.board.st ≠ St.off then s
    else
      let s1 := s.leaveOff
      s1.onBoard (fun b => (b.setVin v).setState St.standby))

/-! ### Cooling (R382, R383) -/

/-- INLET_HIGH (R383): inlet above 45 °C or flow below 55 L/min sets the thermal cap. -/
def execInletHigh (inlet flow : Nat) (s : State) : Host.Outcome State Fault Refusal :=
  done s (
    if s.board.st = St.off then s
    else
      let hot := decide (450 < inlet)
      let low := decide (flow < 550)
      let s1 := s.onBoard (fun b =>
        let b1 := b.setFlds Pg.thm [(F.thmCoolantInlet, inlet), (F.thmFlowLpm, flow), (F.thmStatusInletHigh, b2n hot), (F.thmStatusFlowLow, b2n low)]
        let b2 := if hot then b1.raise Pg.thm F.thmEventInletHigh else b1
        if low then b2.raise Pg.thm F.thmEventFlowLow else b2)
      if hot || low then
        (({ s1 with pwr := { s1.pwr with capThermal := fuseCap s.store.variant * 4 / 5 } }).pmLatch 2).applyCaps
      else s1)

/-- THERMAL_CAP_CLEAR (R383). -/
def execThermalCapClear (s : State) : Host.Outcome State Fault Refusal :=
  done s (
    if s.board.st = St.off then s
    else
      let s1 := s.onBoard (fun b => b.setFlds Pg.thm [(F.thmStatusInletHigh, 0), (F.thmStatusFlowLow, 0)])
      ({ s1 with pwr := { s1.pwr with capThermal := 0 } }).applyCaps)

/-- WARN_ANY while some tile's hottest junction is at or above WARN. -/
def Board.warnAny (b : Board) : Bool := (List.range 24).any (fun t => decide (b.fld Pg.thm F.thmLimitsWarnC ≤ b.fld Pg.thm (F.thmTileMaxC t)))

/-- A tile's hottest junction: at or above WARN its duty falls from the next boundary on (R383). -/
def State.junction (s : State) (t temp : Nat) : State :=
  let s1 := s.onBoard (fun b => let b1 := b.setFld Pg.thm (F.thmTileMaxC t) (min 255 temp); b1.setFld Pg.thm F.thmStatusWarnAny (b2n b1.warnAny))
  let warn := s1.board.fld Pg.thm F.thmLimitsWarnC
  if warn ≤ temp then
    let s2 := if Tbl.get (fun _ => false) s1.pwr.warnTile t then s1 else s1.onBoard (fun b => b.raise Pg.thm F.thmEventJunctionWarn)
    ({ s2 with pwr := { s2.pwr with warnTile := Tbl.set (fun _ => false) s2.pwr.warnTile t true } }).pmLatch 2
  else if temp < warn - 3 then { s1 with pwr := { s1.pwr with warnTile := Tbl.set (fun _ => false) s1.pwr.warnTile t false } }
  else s1

/-- JUNCTION_WARN (R383). -/
def execJunctionWarn (tile temp : Nat) (s : State) : Host.Outcome State Fault Refusal :=
  done s (if s.board.st = St.off ∨ 24 ≤ tile then s else s.junction tile temp)

/-- SENSOR_FAIL (R383): another sensor of the tile plus 5 °C stands in. -/
def execSensorFail (tile other : Nat) (s : State) : Host.Outcome State Fault Refusal :=
  done s (
    if s.board.st = St.off ∨ 24 ≤ tile then s
    else
      (s.onBoard (fun b => b.raise Pg.thm F.thmEventSensorFail)).junction tile (max (s.board.fld Pg.thm (F.thmTileMaxC tile)) (other + 5)))

/-- THERMAL_TRIP (R383): the core domains go off; during a ride-through the flush starts at once (R381). -/
def execThermalTrip (s : State) : Host.Outcome State Fault Refusal :=
  done s (
    if !s.alive || s.board.flag Pg.thm F.thmStatusTripped then s
    else
      let s1 := s.onBoard (fun b => ((b.setFld Pg.thm F.thmStatusTripped 1).inc Pg.thm Cn.thmTrips 1).raise Pg.thm F.thmEventTrip)
      let s2 := (coreSlots.foldl State.switchOff s1).resendAll
      if s2.board.flag Pg.pwr F.pwrGlobalStatusRideThrough && !s2.board.flag Pg.pwr F.pwrGlobalStatusFlushing then s2.startFlush else s2)

/-! ### The two-wire bus (R375) -/

/-- LINEAR11 of n ÷ d: the finest exponent whose mantissa fits 11 bits (DESIGN CHOICE, notes/assumptions/33.md). -/
def linear11At (n d : Nat) : Nat → Int → Nat
  | 0, _ => 0x7BFF
  | k + 1, e =>
    let den := if 0 ≤ e then d * 2 ^ e.toNat else d
    let num := if 0 ≤ e then n else n * 2 ^ (-e).toNat
    let y := (2 * num + den) / (2 * den)
    if y ≤ 1023 then codeOf 5 e * 2 ^ 11 + y else linear11At n d k (e + 1)

/-- LINEAR11 of n ÷ d. -/
def linear11 (n d : Nat) : Nat := if d = 0 then 0 else linear11At n d 32 (-16)

/-- A two-wire command of a module whose always-on domain runs. -/
def pmbus (s : State) (act : State → State) : Host.Outcome State Fault Refusal := done s (if s.answers then act s else s)

/-- Answers a read command. -/
def State.pmAnswer (s : State) (code : Nat) (data : Bytes) : State := s.onBoard (fun b => b.emit (.pmbus code false data))

/-- CLEAR_FAULTS (R375). -/
def execClearFaults (s : State) : Host.Outcome State Fault Refusal :=
  pmbus s (fun s => ({ s with pwr := { s.pwr with pmStatus := 0 } }).pmAnswer 0x03 [])

/-- The bits of STATUS_WORD: what is latched and what stands. -/
def State.statusBits (s : State) : Nat :=
  let b := s.board
  let hot := b.flag Pg.thm F.thmStatusInletHigh || b.flag Pg.thm F.thmStatusFlowLow || b.flag Pg.thm F.thmStatusWarnAny
  s.pwr.pmStatus ||| (8 * b2n (b.flag Pg.pwr F.pwrGlobalStatusInputLow) + 32 * b2n (b.flag Pg.pwr F.pwrGlobalStatusCapUnmet) + 4 * b2n hot)

/-- STATUS_WORD (R375). -/
def execStatusWord (s : State) : Host.Outcome State Fault Refusal := pmbus s (fun s => s.pmAnswer 0x79 (toLE 2 s.statusBits))

/-- READ_VIN (R375), in V. -/
def execReadVin (s : State) : Host.Outcome State Fault Refusal :=
  pmbus s (fun s => s.pmAnswer 0x88 (toLE 2 (linear11 (s.board.fld Pg.pwr F.pwrGlobalInputVin10mv) 100)))

/-- READ_IIN (R375), in A: the input power over the input voltage. -/
def execReadIin (s : State) : Host.Outcome State Fault Refusal :=
  pmbus s (fun s => s.pmAnswer 0x89 (toLE 2 (linear11 (1000 * s.board.fld Pg.pwr F.pwrGlobalInputPowerW10) (s.board.fld Pg.pwr F.pwrGlobalInputVin10mv))))

/-- READ_TEMPERATURE_1 (R375): the inlet, in °C. -/
def execReadTemperature1 (s : State) : Host.Outcome State Fault Refusal :=
  pmbus s (fun s => s.pmAnswer 0x8D (toLE 2 (linear11 (s.board.fld Pg.thm F.thmCoolantInlet) 10)))

/-- READ_PIN (R375), in W. -/
def execReadPin (s : State) : Host.Outcome State Fault Refusal :=
  pmbus s (fun s => s.pmAnswer 0x97 (toLE 2 (linear11 (10 * s.board.fld Pg.pwr F.pwrGlobalInputPowerW10) 1)))

/-- PMBUS_REVISION (R375). -/
def execPmbusRevision (s : State) : Host.Outcome State Fault Refusal := pmbus s (fun s => s.pmAnswer 0x98 [0x33])

/-- MFR_ID (R375): the block "GBC", its byte count first. -/
def execMfrId (s : State) : Host.Outcome State Fault Refusal := pmbus s (fun s => s.pmAnswer 0x99 [3, 0x47, 0x42, 0x43])

/-- MFR POWER_CAP (R375): a write sets the two-wire cap, a read answers it. -/
def execMfrPowerCap (value : Option Nat) (s : State) : Host.Outcome State Fault Refusal :=
  pmbus s (fun s =>
    match value with
    | some v => (s.setCap F.pwrGlobalCapPmbusW10 (v % 65536)).pmAnswer 0xD0 []
    | none => s.pmAnswer 0xD0 (toLE 2 (s.board.fld Pg.pwr F.pwrGlobalCapPmbusW10)))

/-- The codes of R375. -/
def pmbusCodes : List Nat := [0x03, 0x79, 0x88, 0x89, 0x8D, 0x97, 0x98, 0x99, 0xD0]

/-- PMBUS_NACK (R375): every other code. -/
def execPmbusNack (code : Nat) (s : State) : Host.Outcome State Fault Refusal :=
  pmbus s (fun s =>
    if pmbusCodes.contains code then s
    else s.onBoard (fun b =>
      (((b.emit (.pmbus code true [])).inc Pg.mod Cn.modPmbusNacks 1).setFld Pg.mod F.modPmbusLastCode code).raise Pg.mod F.modEventPmbusNack))

end Sys2Proof.Machine
end

