-- ==== Sys2Proof/Machine/RegWrite.lean ====
section
/-! DEFINITION. What a write to a register stores (00_scope: R9, R10; 16_register_pages: R457, R458, R463 to R465) and the rules by which
a field discards a value (each page's own chapter). -/
namespace Sys2Proof.Machine

/-! ### What stands at an offset -/

/-- How a write sees a word of a page. -/
inductive WordSort where
  | reserved
  | readOnly
  | writable
  deriving DecidableEq, Repr

/-- A 64-bit counter covers this offset. -/
def counterAt (k : PageKind) (off : Nat) : Bool :=
  (countersOf k).any (fun c => (List.range c.2.1).any (fun i => c.1 + c.2.2 * i == off - off % 8))

/-- A page with an observation window (R441, R446). -/
def hasWindow (k : PageKind) : Bool := k == .tel || k == .trc

/-- Registers that a table lists as RO and reserved throughout (R170, R279). -/
def listedRo (k : PageKind) (off : Nat) : Bool := (k == .opq || k == .ful) && decide (0x100 ≤ off) && decide (off < 0x500) && off % 64 == 0x3C

/-- A word of a page that follows the common header (R458). -/
def wordSort (k : PageKind) (off : Nat) : WordSort :=
  if k == .reserved then .reserved
  else if off ≤ 0x010 ∧ off ≠ 0x00C ∨ off = 0x020 then .readOnly
  else if 0x800 ≤ off ∧ off < 0xC00 then if counterAt k off then .readOnly else .reserved
  else if 0xC00 ≤ off then if hasWindow k then .readOnly else .reserved
  else if listedRo k off then .readOnly
  else
    match fieldsAt k off with
    | [] => .reserved
    | rs => if rs.all (fun r => r.acc == .ro) then .readOnly else .writable

/-- The bits that a list of rows covers. -/
def rowBits (rs : List FieldRow) : Nat := rs.foldl (fun a r => a ||| maskOf r.msb r.lsb) 0

/-- The bits of a write that name reserved fields. -/
def reservedBits (k : PageKind) (off v : Nat) : Nat :=
  let d := rowBits ((fieldsAt k off).filter (fun r => !r.rsv))
  maskOfList ((bitList 32 v).filter (fun i => !d.testBit i))

/-- The bits of the RW and RWB fields of a word, and of the RWB fields alone. -/
def storedBits (k : PageKind) (off : Nat) : Nat := rowBits ((fieldsAt k off).filter (fun r => !r.rsv && (r.acc == .rw || r.acc == .rwb)))
def rwbBits (k : PageKind) (off : Nat) : Nat := rowBits ((fieldsAt k off).filter (fun r => !r.rsv && r.acc == .rwb))

/-- The states in which an RWB field takes a write (R9). -/
def State.rwbState (s : State) : Bool := decide (St.standby ≤ s.board.st) && decide (s.board.st ≤ St.held)

/-- Bits of `a` that are not in `b`. -/
def bitsWithout (a b : Nat) : Nat := maskOfList ((bitList 32 a).filter (fun i => !b.testBit i))

/-- A register whose write is a command (WO and W1S fields). -/
def isCommand (k : PageKind) (off : Nat) : Bool := (fieldsAt k off).any (fun r => r.acc == .wo || r.acc == .w1s)

/-! ### Values that a field's own rule discards (R463 cause 2) -/

/-- The bits of a field that discards its value when `bad`. -/
def drop (bad : Bool) (msb lsb : Nat) : Nat := if bad then maskOf msb lsb else 0

/-- Windows of an engine's enabled slots, but for one (R266). -/
def Board.windowSum (b : Board) (page but : Nat) : Nat :=
  ((List.range 16).map (fun i => if i ≠ but ∧ b.fld page (F.fulTreeCfgEnable i) = 1 then b.fld page (F.fulTreeWindowSegments i) else 0)).sum

/-- A FUL slot word: DEADLINE 0, ENABLE and windows beyond the sum of R266, a parent group of another quadrant (R279). -/
def Board.dropFul (b : Board) (page q off v : Nat) : Nat :=
  let i := (off - 0x100) / 64
  let w := (off - 0x100) % 64
  if w = 0x00 then
    drop (bitsOf v 15 8 == 0) 15 8 |||
      drop (v.testBit 0 && decide (16384 < b.windowSum page i + b.fld page (F.fulTreeWindowSegments i))) 0 0
  else if w = 0x04 then drop (!(bitsOf v 19 16 / 3 == q)) 19 16
  else if w = 0x08 then
    let n := bitsOf v 14 0
    drop (decide (n < 64) || decide (16384 < n) ||
      (b.fld page (F.fulTreeCfgEnable i) == 1 && decide (16384 < b.windowSum page i + n))) 14 0
  else 0

/-- A partition's cores: an enabled core that no other partition holds (R159). -/
def State.dropPart (s : State) (off v : Nat) : Nat :=
  let p := (off - 0x500) / 16
  let w := (off - 0x500) % 16 / 4
  drop (decide (off < 0x600) && (bitList 32 v).any (fun i =>
    !s.coreEnabled (32 * w + i) || (List.range 16).any (fun o => !(o == p) && (s.board.partMask o).testBit (32 * w + i)))) 31 0

/-- A context's ring sizes, scale table and working store region (R170). -/
def dropCtx (off v : Nat) : Nat :=
  let w := (off - 0x100) % 64
  if w = 0x10 ∨ w = 0x1C then drop (decide (bitsOf v 4 0 < 5) || decide (15 < bitsOf v 4 0)) 4 0
  else if w = 0x28 then drop (decide (12 < bitsOf v 3 0)) 3 0
  else if w = 0x30 then drop (decide (128 < bitsOf v 7 0 + bitsOf v 15 8)) 15 0
  else 0

/-- The bits of a write whose fields discard their value. -/
def State.dropped (s : State) (page off v : Nat) : Nat :=
  let i := (pageInfo page).2
  match pageKindOf page with
  | .core =>
    if off = 0x140 then
      drop (decide (126 < bitsOf v 7 0) || decide (bitsOf v 15 8 < 1) || decide (64 < bitsOf v 15 8) ||
        decide (128 < bitsOf v 7 0 + 2 * bitsOf v 15 8)) 15 0
    else if off = 0x150 then drop (decide (bitsOf v 6 0 < 4) || decide (64 < bitsOf v 6 0)) 6 0
    else 0
  | .spx => if off = 0x100 then drop (decide (1024 < bitsOf v 10 0)) 10 0 else 0
  | .opq0 => if 0x500 ≤ off then (if off % 16 = 12 then 0 else s.dropPart off v) else 0
  | .opq => if 0x100 ≤ off then dropCtx off v else 0
  | .fabSpine =>
    if off = 0x100 then
      let r := bitsOf v 4 0
      let w := bitsOf v 12 8
      let m := bitsOf v 20 16
      if r = 0 ∨ w = 0 ∨ m = 0 ∨ r + w + m ≠ 16 then maskOf 4 0 ||| maskOf 12 8 ||| maskOf 20 16 else 0
    else 0
  | .crdGlobal =>
    if off = 0x200 then drop (bitsOf v 7 0 == 0) 7 0 ||| drop (bitsOf v 15 8 == 0) 15 8 ||| drop (bitsOf v 23 16 == 0) 23 16 else 0
  | .ful => if 0x100 ≤ off ∧ off < 0x500 then s.board.dropFul page i off v else 0
  | .hbGlobal => if 0x100 ≤ off then drop (!(bitsOf v 1 0 == 0) && !s.groupUsable ((off - 0x100) / 4)) 1 0 else 0
  | .tk =>
    if off = 0x100 then
      let n := bitsOf v 17 0
      drop (!(n % 1024 == 0) || decide (n < 4096) || decide (163840 < n)) 17 0
    else if off = 0x104 then drop (bitsOf v 23 16 == 0) 23 16
    else 0
  | .clk =>
    if off = 0x100 then drop (decide (bitsOf v 5 0 < 10) || decide (fuseMult s.store.variant < bitsOf v 5 0)) 5 0 else 0
  | .pwrGlobal =>
    if off = 0x118 then drop (decide (10 < bitsOf v 3 0)) 3 0 ||| drop (decide (bitsOf v 15 8 < 5) || decide (40 < bitsOf v 15 8)) 15 8 else 0
  | .thm => if off = 0x100 then drop (decide (bitsOf v 7 0 < 80) || decide (100 < bitsOf v 7 0)) 7 0 else 0
  | .bup => if off = 0x114 then drop (bitsOf v 15 0 == 0) 15 0 else 0
  | .tel => if off = 0x104 then drop (bitsOf v 7 0 == 0) 7 0 else 0
  | _ => 0

/-! ### A context's configuration while the context is not FREE (R158) -/

/-- The context of a register of OPQ#1 to OPQ#16. -/
def ctxAt (page off : Nat) : Nat := 16 * (page - Pg.opq 1) + (off - 0x100) / 64

/-- Bits that a context which is not FREE discards. RI always takes a write; so do LEVEL_PIN and SHARE, at the next boundary. A CTX_CFG
write breaks the rule only where PARTITION or STREAMER would change (DEDUCED, notes/assumptions/34.md). -/
def State.ctxLocked (s : State) (page off v : Nat) : Nat :=
  if pageKindOf page == .opq && decide (0x100 ≤ off) && decide (off < 0x500) && !(s.cstate (ctxAt page off) == Cs.free) then
    let w := (off - 0x100) % 64
    let m := maskOf 4 0
    if w = 0x24 then 0
    else if w = 0x00 then
      if v % 32 = bitsOf (s.board.rd page off).toNat 4 0 then 0 else m
    else storedBits .opq off
  else 0

/-- LEVEL_PIN and SHARE of a context that is not FREE wait for the boundary. -/
def State.pinLater (s : State) (page off v : Nat) : Nat × State :=
  if pageKindOf page == .opq && decide (0x100 ≤ off) && decide (off < 0x500) && (off - 0x100) % 64 == 0 &&
      !(s.cstate (ctxAt page off) == Cs.free) then
    (maskOf 23 8, s.updCtx (ctxAt page off) (fun c => { c with cfgNext := some (BitVec.ofNat 32 v) }))
  else (0, s)

/-! ### What a stored value does at once -/

/-- A register's low word with a latched high word (R455). -/
def lowWord (k : PageKind) (off : Nat) : Bool :=
  match k with
  | .spx => off == 0x118
  | .opq => decide (0x100 ≤ off) && decide (off < 0x500) && ((off - 0x100) % 64 == 0x10 || (off - 0x100) % 64 == 0x1C || (off - 0x100) % 64 == 0x28)
  | .crdGlobal => decide (0x100 ≤ off) && decide (off < 0x200) && off % 16 == 0
  | .hbGlobal => off == 0x140
  | .tk => off == 0x108 || off == 0x110 || off == 0x118
  | .clk => off == 0x110
  | .fus => off == 0x100 || off == 0x140
  | .tel => off == 0x108 || (decide (0x120 ≤ off) && decide (off < 0x1A0) && off % 8 == 0) || off == 0x1A0 || off == 0x1A8
  | _ => false

/-- The low word of a counter, or of another 64-bit register. -/
def isLow (k : PageKind) (off : Nat) : Bool := lowWord k off || (counterAt k off && decide (0x800 ≤ off) && decide (off < 0xC00) && off % 8 == 0)

/-- Where a link's latched high word is kept. -/
def latchKey (link page off : Nat) : Nat := link * 2 ^ 20 + regKey page off

/-- A link that writes a high word reads its own write next (R454), not what it had latched. -/
def Board.dropLatch (b : Board) (src page off : Nat) : Board :=
  { b with latch := Tbl.set (fun (_ : Nat) => (none : Option Word)) b.latch (latchKey src page off) none }

/-- The ring that TRC.WINDOW selects: 0 class C, 1 class B, 2 and 3 a tile's trace ring; its records' count and its write index. -/
def Board.ringAt (b : Board) : Nat × Nat :=
  match b.fld Pg.trc F.trcWindowSrc with
  | 0 => (b.ringC.recs.length, b.ringC.wi)
  | 1 => (b.ringB.recs.length, b.ringB.wi)
  | 2 => let r := Tbl.get noTrace b.traces (b.fld Pg.trc F.trcWindowTile); (r.recs.length, r.wi)
  | _ => (0, 0)

/-- TRC.INDEX.RI is written: the records before it are released; past WI, all (R446). -/
def Board.releaseTo (b : Board) (ri : Nat) : Board :=
  let r := b.ringAt
  let n := min r.1 ((ri + 2 ^ 17 - (r.2 + 2 ^ 17 - r.1) % 2 ^ 16) % 2 ^ 16)
  match b.fld Pg.trc F.trcWindowSrc with
  | 0 => b.releaseC n
  | 1 => b.releaseB n
  | 2 =>
    let t := b.fld Pg.trc F.trcWindowTile
    let x := Tbl.get noTrace b.traces t
    { b with traces := Tbl.set noTrace b.traces t { x with recs := x.recs.drop n } }
  | _ => b

/-- FAB.PATTERN and FAB.LAT_BOUND follow FAB.SPLIT (R209, R213). -/
def Board.syncSplit (b : Board) : Board :=
  let r := b.fld Pg.fabSpine F.fabSpineSplitRead
  let w := b.fld Pg.fabSpine F.fabSpineSplitWrite
  let m := b.fld Pg.fabSpine F.fabSpineSplitRemote
  b.setFlds Pg.fabSpine [(F.fabSpinePatternSlots, patternWord (slotPattern r w m)), (F.fabSpineLatBoundCycles, latBound r w m)]

/-- What follows a store in a register: `old` is the word before. -/
def State.afterStore (s : State) (page off : Nat) (old : Word) (v : Nat) : State :=
  match pageKindOf page with
  | .fabSpine => if off = 0x100 then s.onBoard Board.syncSplit else s
  | .tk =>
    if off = 0x100 ∧ s.board.rd page off ≠ old ∧ s.gridRuns = true ∧ s.bup.served = false ∧ s.crown.follows = false then
      { s with bup := { s.bup with regrid := true } }
    else s
  | .opq => if 0x100 ≤ off ∧ off < 0x500 ∧ (off - 0x100) % 64 = 0x24 then s.drainRecs (ctxAt page off) else s
  | .hb => if off = 0x014 then s.loopWrite (pageInfo page).2 (fget old F.hbControlLoopback) (fget old F.hbControlFarLoop) else s
  | .trc => if off = 0x104 then s.onBoard (fun b => (b.wr page off 0).releaseTo (bitsOf v 31 16)) else s
  | .pwrGlobal => if off = 0x100 then s.applyCaps else s
  | _ => s

/-! ### The write -/

/-- Stores the RW and RWB fields of a word, those that may change and keep their value rule, and reports the others once: cause 7, then 1,
then 2. -/
def State.storeFields (s : State) (src page off v : Nat) : State :=
  let k := pageKindOf page
  let all := storedBits k off
  let locked := s.ctxLocked page off v
  let shut := if s.rwbState then 0 else rwbBits k off
  let out := s.dropped page off v
  let (later, s1) := s.pinLater page off v
  let old := s1.board.rd page off
  let take := bitsWithout all (locked ||| shut ||| out ||| later)
  let w := (old &&& ~~~(BitVec.ofNat 32 take)) ||| (BitVec.ofNat 32 v &&& BitVec.ofNat 32 take)
  let s2 := (s1.onBoard (fun b => (b.wr page off w).dropLatch src page off)).afterStore page off old v
  let cause := if locked ≠ 0 then 7 else if shut ≠ 0 then 1 else if out ≠ 0 then 2 else 0
  if cause = 0 then s2 else s2.onBoard (fun b => b.accErr page off cause src)

/-- A write that has passed the gate of R464, to a page with the common header; `act` is what a command register does. -/
def State.storeReg (act : Nat → Nat → Nat → State → State) (src page off v : Nat) (s : State) : State :=
  let k := pageKindOf page
  match wordSort k off with
  | .readOnly => s
  | .reserved => if v = 0 then s else s.onBoard (fun b => b.accErr page off 4 src)
  | .writable =>
    let s1 :=
      if isCommand k off then act page off v s
      else if off = evtOff then s.onBoard (fun b => b.clearEvents page v)
      else if off = evtEnOff then
        let w := BitVec.ofNat 32 v &&& BitVec.ofNat 32 (storedBits k off)
        s.onBoard (fun b => b.pendRise (b.wr page off w) page)
      else s.storeFields src page off v
    let r := reservedBits k off v
    if r = 0 then s1 else s1.onBoard (fun b => b.levelEvt page off r src)

/-! ### The MSI-X pages (R434, R457) -/

/-- An entry's pending bit is set and the entry is not masked: its message goes out (R457). -/
def Board.unmasked (b : Board) (link vec : Nat) : Board :=
  let p := (b.msixRd link true 0).toNat
  if p.testBit vec && !(b.msixRd link false (16 * vec + 12)).getLsbD 0 then
    (b.msixWr link true 0 (BitVec.ofNat 32 (clearBit p vec))).emit (.vector link vec)
  else b

/-- A write to a function's MSI-X table or pending bit array; the array is read-only (PRESUMED from the PCI Express Base Specification
that R457 names, notes/assumptions/8.md). -/
def State.storeMsix (src page off v : Nat) (s : State) : State :=
  if page = 0x0F0 ∧ off < 0x140 then s.onBoard (fun b => (b.msixWr src false off (BitVec.ofNat 32 v)).unmasked src (off / 16))
  else if page = 0x0F1 ∧ off < 8 then s
  else if v = 0 then s
  else s.onBoard (fun b => b.accErr page off 4 src)

end Sys2Proof.Machine
end

