-- ==== Sys2Proof/Machine/Defmap.lean ====
section
/-! DEFINITION. The merged defect map and what it does to the units (14_bringup: R399 to R406; 03: R66; 06: R179, R180; 07: R221; 10: R285;
13: R370, R384). -/
namespace Sys2Proof.Machine

/-! ### The merged map (R403, R405) -/

/-- Two entries of one KIND, UNIT and DETAIL. -/
def Defect.same (a b : Defect) : Bool := a.kind == b.kind && a.unit == b.unit && a.detail == b.detail

/-- Ascending order of (KIND, UNIT, DETAIL). -/
def Defect.le (a b : Defect) : Bool :=
  decide (a.kind < b.kind) || (a.kind == b.kind && (decide (a.unit < b.unit) || (a.unit == b.unit && decide (a.detail ≤ b.detail))))

/-- An entry in its place; one that is already there keeps the earlier entry. -/
def insertDefect (d : Defect) : List Defect → List Defect
  | [] => [d]
  | e :: r => if d.same e then e :: r else if d.le e then d :: e :: r else e :: insertDefect d r

/-- The union of entries, each once, the earliest kept. -/
def unionDefects (l : List Defect) : List Defect := l.foldl (fun a d => insertDefect d a) []

/-- A derived entry. -/
def derived (kind unit detail : Nat) : Defect := ⟨kind, 5, unit, detail, 0⟩

/-- Entries of a kind, and their units, each once. -/
def ofKind (k : Nat) (m : List Defect) : List Defect := m.filter (fun d => d.kind == k)
def unitsOf (m : List Defect) : List Nat := (m.map Defect.unit).eraseDups

/-- The derived entries of R396 and R401. Which rows of a slice get its spares is taken in ascending order. -/
def deriveDefects (m : List Defect) : List Defect :=
  let sites := ofKind 2 m
  let c2 := (unitsOf sites).filter (fun c => decide (16 < (sites.filter (fun d => d.unit == c)).length))
  let rows := ofKind 3 m
  let c3 := (unitsOf rows).filter (fun c =>
    let mine := rows.filter (fun d => d.unit == c)
    ((mine.map (fun d => bitsOf d.detail 20 16)).eraseDups).any (fun k =>
      decide (Config.wsSpareRows < (mine.filter (fun d => bitsOf d.detail 20 16 == k)).length)))
  let srows := ofKind 4 m
  let pos := (unitsOf srows).flatMap (fun sl =>
    ((srows.filter (fun d => d.unit == sl)).drop Config.sliceSpareRows).flatMap (fun d => (Config.rowPositions d.detail).map (fun q => derived 10 sl q)))
  let lanes := ofKind 6 m
  let ch6 := ((lanes.map (fun d => 32 * d.unit + bitsOf d.detail 12 8)).eraseDups).filter (fun ch =>
    decide (Config.tsvSpareLanes < (lanes.filter (fun d => 32 * d.unit + bitsOf d.detail 12 8 == ch)).length))
  let blocks := ofKind 11 m
  let ch11 := (unitsOf blocks).filter (fun ch => decide (64 < (blocks.filter (fun d => d.unit == ch)).length))
  (c2 ++ c3).map (fun c => derived 1 c 0) ++ pos ++ (ch6 ++ ch11).map (fun ch => derived 7 ch 0)

/-- The merged map of a module (R403): factory entries, the field log where its signature verifies, what a full log did not take, and the
derived entries. -/
def mergedMap (st : Store) (extra : List Defect) : List Defect :=
  let m := unionDefects (st.factory ++ (if st.logValid then st.fieldLog ++ st.fieldStaged else []) ++ extra)
  (deriveDefects m).foldl (fun a d => insertDefect d a) m

/-- An entry's 16 bytes (R400). -/
def Defect.bytes (d : Defect) (source bringup : Nat) : Bytes :=
  toLE 1 d.kind ++ toLE 1 source ++ toLE 2 0 ++ toLE 4 d.unit ++ toLE 4 d.detail ++ toLE 4 bringup

/-- MAP_DIGEST (R405). -/
def mapDigest (m : List Defect) : Nat := crc64 (m.flatMap (fun d => d.bytes 0 0))

/-! ### Cores (R66, R93, R159) -/

/-- Bad sites of a core, ascending: entries of kind 2. -/
def badSites (m : List Defect) (c : Nat) : List Nat := (List.range 400).filter (fun i => m.any (fun d => d.kind == 2 && d.unit == c && d.detail == i))

/-- Spares in use: (spare, site) pairs (R66). -/
def sparePairs (bad : List Nat) : List (Nat × Nat) :=
  (((List.range 16).map (· + 384)).filter (fun i => !bad.contains i)).zip (bad.filter (fun i => decide (i < 384)))

/-- A core's site registers. -/
def State.syncSites (s : State) (m : List Defect) (c : Nat) : State :=
  let bad := badSites m c
  let ps := sparePairs bad
  let p := Pg.core c
  s.onBoard (fun b =>
    let b1 := b.setFlds p [(F.coreStatusSparesUsed, ps.length), (F.coreSitesGoodSites, 400 - bad.length), (F.coreSitesBadSites, bad.length)]
    (List.range 8).foldl (fun b n =>
      let a := ps.find? (fun x => x.1 == 384 + 2 * n)
      let d := ps.find? (fun x => x.1 == 385 + 2 * n)
      b.setFlds p [(F.coreSpareMapSiteA n, (a.map Prod.snd).getD 0), (F.coreSpareMapValidA n, b2n a.isSome), (F.coreSpareMapSiteB n, (d.map Prod.snd).getD 0),
        (F.coreSpareMapValidB n, b2n d.isSome)]) b1)

/-- A list of core numbers as the three words of a mask. -/
def maskWords (l : List Nat) : List Nat :=
  (List.range 3).map (fun w => maskOfList ((l.filter (fun c => decide (c / 32 = w))).map (· % 32)))

/-- The cores as the merged map leaves them: a core that it newly disables goes off and leaves its partition (R159, R369). -/
def State.syncCores (s : State) (m : List Defect) : State :=
  let s1 := (List.range 96).foldl (fun s c =>
    if s.coreEnabled c then ((s.onBoard (fun b => b.setFld (Pg.core c) F.coreStatusEnabled 1)).syncSites m c)
    else (s.onBoard (fun b => b.setFld (Pg.core c) F.coreStatusEnabled 0)).switchOff (28 + c)) s
  let on := s1.enabledCores
  let w := maskWords on
  s1.onBoard (fun b =>
    let b1 := (List.range 16).foldl (fun b p => b.setPartMask p (maskOfList ((bitList 96 (b.partMask p)).filter (fun c => on.contains c)))) b
    (b1.setFld Pg.mod F.modStatusEnabledCores on.length).setFlds Pg.fus
      [(F.fusCoresLoCores, w.getD 0 0), (F.fusCoresMidCores, w.getD 1 0), (F.fusCoresHiCores, w.getD 2 0), (F.fusCountsEnabled, on.length)])

/-! ### Slices, DRAM and the seam (R179, R180, R221, R404) -/

/-- The frames of a tier that the map retires, each once. -/
def retiredFrames (m : List Defect) (dram : Bool) : List Nat :=
  if dram then ((ofKind 11 m).filterMap (fun d => dramFrame (liveList m) d.unit d.detail)).eraseDups
  else ((ofKind 10 m).map (fun d => sliceFrame d.unit d.detail)).eraseDups

/-- Frames of a tier that neither the map nor a page takes. -/
def framesLeft (total : Nat) (lo : Nat) (used : List (Nat × Bool)) (retired : List Nat) : Nat :=
  total - ((used.map Prod.fst ++ retired).eraseDups.filter (fun f => decide (lo ≤ f) && decide (f < lo + total))).length

/-- Memory as the merged map leaves it: the live channels, the frames retired and free, the spare rows. -/
def State.syncMemory (s : State) (m : List Defect) : State :=
  let live := liveList m
  let r0 := retiredFrames m false
  let r1 := retiredFrames m true
  let new := (r0.filter (fun f => !s.tier.retired0.contains f)).length + (r1.filter (fun f => !s.tier.retired1.contains f)).length
  let s1 : State := { s with tier := { s.tier with retired0 := r0, retired1 := r1 } }
  let rows := ofKind 4 m
  s1.onBoard (fun b =>
    let b1 := (b.inc Pg.fus Cn.fusFramesRetired new).setFlds Pg.mem
      [(F.memLiveChannelsL, live.length), (F.memFramesT0FreeFrames, framesLeft (Lay.frame0Hi - Lay.frame0Lo) Lay.frame0Lo s1.tier.used0 r0),
       (F.memFramesT1FreeFrames, framesLeft (384 * live.length) 0 s1.tier.used1 r1)]
    let b2 := (List.range 96).foldl (fun b k =>
      let mine := live.filter (fun ch => ch / 32 == k)
      b.setFlds (Pg.drm k) [(F.drmStatusLive, mine.length), (F.drmChanLiveMask, maskOfList (mine.map (· % 32)))]) b1
    (List.range 24).foldl (fun b t =>
      let mine := rows.filter (fun d => d.unit / 24 == t)
      b.setFld (Pg.slc t) F.slcStatusSpareRowsUsed
        ((unitsOf mine).foldl (fun a sl => a + min Config.sliceSpareRows (mine.filter (fun d => d.unit == sl)).length) 0)) b2)

/-- The seam of a tile: groups with more than 4 bad wires are lost, and the others' bad wires take spares (R221). Direction 0 is taken as
west to east (DESIGN CHOICE, notes/assumptions/36.md). -/
def State.syncSeam (s : State) (m : List Defect) (t : Nat) : State :=
  let wires := (ofKind 5 m).filter (fun d => d.unit == t)
  let count := fun (g : Nat) => (wires.filter (fun d => d.detail / 2 ^ 16 == g)).length
  let groups := (wires.map (fun d => d.detail / 2 ^ 16)).eraseDups
  let lost := groups.filter (fun g => decide (4 < count g))
  let ew := (lost.filter (fun g => decide (g < 2 ^ 15))).length
  let we := lost.length - ew
  let used := (groups.filter (fun g => decide (count g ≤ 4))).foldl (fun a g => a + count g) 0
  s.onBoard (fun b => b.setFlds (Pg.fabTile t) [(F.fabTileStatusLostEw, ew), (F.fabTileStatusLostWe, we),
    (F.fabTileStatusSeamDegraded, b2n (decide (512 < ew) || decide (512 < we))), (F.fabTileSparesUsedWires, used)])

/-- Every tile's seam, and the spine's summary. -/
def State.syncSeams (s : State) (m : List Defect) : State :=
  let s1 := (List.range 24).foldl (fun s t => s.syncSeam m t) s
  s1.onBoard (fun b => b.setFld Pg.fabSpine F.fabSpineStatusSeamDegraded
    (b2n ((List.range 24).any (fun t => b.flag (Pg.fabTile t) F.fabTileStatusSeamDegraded))))

/-! ### Engines (R285, R308) -/

/-- An engine as fuses, licence and map leave it: a usable one that is dark goes to LIGHT_CHECK when its quadrant is powered; one that is
no longer usable goes dark. -/
def State.syncEngine (s : State) (e : Nat) : State :=
  let use := s.engineUsable e
  let s1 := s.onBoard (fun b => b.setFld (Pg.hb e) F.hbStatusUsable (b2n use))
  if use && s1.board.engState e == Eng.dark && s1.board.on.contains (124 + e / 12) then s1.setEng e Eng.lightCheck
  else if !use && !(s1.board.engState e == Eng.dark) then (if s1.engUp e then s1.goDown e else s1).setEng e Eng.dark
  else s1

/-- Every engine, and HB#48.USABLE. -/
def State.syncEngines (s : State) : State :=
  let s1 := (List.range 48).foldl State.syncEngine s
  s1.onBoard (fun b => b.wr64 Pg.hbGlobal F.hbGlobalUsableLoEngines.off (maskOfList ((List.range 48).filter s1.engineUsable)))

/-- The bad lanes of the map. -/
def State.syncBadLanes (s : State) (m : List Defect) : State :=
  (unitsOf (ofKind 8 m)).foldl (fun s e => s.onBoard (fun b =>
    b.setFlds (Pg.hb e) [(F.hbTxBadLanes, maskOfList (badLanes m e 0)), (F.hbRxBadLanes, maskOfList (badLanes m e 1))])) s

/-! ### Converters and the sweatband (R370, R384, R389) -/

/-- The phase states of a tile: 3 where it has no such phase, else the latest that the map says. -/
def State.syncPhases (s : State) (m : List Defect) : State :=
  let s1 := s.onBoard (fun b => (List.range 24).foldl (fun b t =>
    (List.range 29).foldl (fun b i =>
      let hits := m.filter (fun d => d.kind == 9 && d.unit == t && d.detail % 256 == i)
      let v := if !phaseThere t i then 3 else if hits.any (fun d => bitsOf d.detail 17 16 == 1) then 1 else if hits.isEmpty then b.phase t i else 2
      b.setFld (Pg.pwrTile t) (F.pwrTilePhaseState i) v) b) b)
  let s2 : State := { s1 with pwr := { s1.pwr with sweatTiles := ((ofKind 12 m).map Defect.unit ++ s1.pwr.sweatTiles).eraseDups } }
  (List.range 24).foldl State.syncLimit s2

/-! ### A merge -/

/-- The map as FUS shows it (R405, R426). -/
def State.publishMap (s : State) : State :=
  s.onBoard (fun b =>
    (b.setFlds Pg.fus [(F.fusMapEntriesCount, s.bup.merged.length), (F.fusFieldEntriesCount, s.store.logCount), (F.fusLifeBringupsCount, s.store.lifeBringups),
      (F.fusStatusBelowFloor, b2n (decide (s.enabledCores.length < fuseFloor s.store.variant)))]).wr64 Pg.fus F.fusMapDigestLoDigest.off (mapDigest s.bup.merged))

/-- Merges the map and applies it to every unit (R403). -/
def State.merge (s : State) : State :=
  let m := mergedMap s.store s.bup.extra
  let changed := !decide (m = s.bup.merged)
  let s1 : State := { s with bup := { s.bup with merged := m, sinceMerge := [], applied := [] } }
  let s2 := ((((s1.syncCores m).syncMemory m).syncSeams m).syncBadLanes m).syncEngines
  ((s2.syncPhases m).publishMap).onBoard (fun b =>
    let b1 := b.inc Pg.fus Cn.fusMerges 1
    if changed then b1.raise Pg.fus F.fusEventMapChanged else b1)

/-- Findings of a bring-up test: appended, then merged after each (R394, R403). -/
def State.findings (s : State) (source : Nat) (found : List Found) : State :=
  found.foldl (fun s f => (s.appendDefect { f with source := source }).merge) s

/-- Frames that the module needs: none of the first 256 retired, 9,088 paged ones left (R406). -/
def State.memoryShort (s : State) : Bool :=
  s.tier.retired0.any (fun f => decide (f < Lay.frame0Lo)) ||
    decide (Lay.frame0Hi - Lay.frame0Lo < 9088 + (s.tier.retired0.filter (fun f => decide (Lay.frame0Lo ≤ f))).length)

end Sys2Proof.Machine
end

