-- ==== Sys2Proof/Machine/ConfigStore.lean ====
section
/-! DEFINITION. The configuration store, the RWB image, the topology descriptor and the licence (14_bringup: R407 to R414; 16: R471,
R475). -/
namespace Sys2Proof.Machine

/-! ### Blocks (R408) -/

/-- A block of a bank: its header fields, its payload and its bytes as they stand. `intact` covers MAGIC and CRC64. -/
structure Block where
  magic : Bool
  intact : Bool
  type : Nat
  level : Nat
  gen : Nat
  payload : Bytes
  raw : Bytes
  deriving DecidableEq, Repr

/-- A bank as its blocks, walked by LENGTH. -/
def parseBank : Nat → Bytes → List Block
  | 0, _ => []
  | n + 1, bs =>
    if bs.isEmpty then []
    else
      let len := leAt bs 8 4
      let size := 32 + ceilDiv len 4 * 4
      let magic := decide (leAt bs 0 4 = 0x43464742)
      let p := slice bs 32 len
      ⟨magic, magic && decide (size ≤ bs.length) && decide (crc64 p = leAt bs 16 8), leAt bs 4 1, leAt bs 5 1, leAt bs 12 4, p, bs.take size⟩ ::
        parseBank n (bs.drop size)

/-- The blocks of a bank. -/
def blocksOf (bank : Bytes) : List Block := parseBank (bank.length / 32 + 1) bank

/-- Entry g of a TOPOLOGY payload (R410): ROLE, SERVER_GROUP, PEER_GROUP, PEER_RACK, MIN_ENGINES, MIN_LEVEL, OPTIONAL. -/
structure TopoEntry where
  role : Nat
  server : Nat
  peerGroup : Nat
  peerRack : Nat
  minEngines : Nat
  minLevel : Nat
  optional : Bool
  deriving DecidableEq, Repr

/-- Entry g. -/
def topoEntry (t : Bytes) (g : Nat) : TopoEntry :=
  let v := leAt t (8 + 8 * g) 8
  ⟨bitsOf v 1 0, bitsOf v 11 8, bitsOf v 15 12, bitsOf v 27 16, bitsOf v 34 32, bitsOf v 41 40, v.testBit 48⟩

/-- RACK_INDEX of a TOPOLOGY payload. -/
def topoRack (t : Bytes) : Nat := leAt t 0 2 % 4096

/-- The rules of a block's type (R408 to R410, R413). -/
def Block.fits (b : Block) : Bool :=
  match b.type with
  | 1 =>
    decide (b.payload.length = 104) && (List.range 12).all (fun g =>
      let e := topoEntry b.payload g
      decide (e.role ≤ 2) && decide (1 ≤ e.minEngines) && decide (e.minEngines ≤ 4) && decide (1 ≤ e.minLevel))
  | 2 => decide (b.payload.length = 224) && decide (leAt b.payload 0 4 = 0x4C494345)
  | 3 => decide (b.payload.length % 8 = 0)
  | 4 => decide (4 ≤ b.payload.length)
  | _ => false

/-- Blocks of a type. -/
def countType (l : List Block) (t : Nat) : Nat := (l.filter (fun b => b.type == t)).length

/-- A bank breaks R407 or R408: its blocks, their number, their order and their GENERATION. The block count of COMMIT includes COMMIT
(DEDUCED, notes/assumptions/37.md). -/
def bankBad (l : List Block) : Bool :=
  !(l.all (fun b => b.intact && b.fits)) || countType l 1 ≠ 1 || countType l 3 ≠ 1 || decide (1 < countType l 2) || countType l 4 ≠ 1 ||
    (match l.getLast? with
     | some c => !(c.type == 4) || !decide (leAt c.payload 0 4 = l.length) || l.any (fun b => !(b.gen == c.gen))
     | none => true)

/-- A LEVEL of 0 or above 3. -/
def bankLevel (l : List Block) : Bool := l.any (fun b => b.level == 0 || decide (3 < b.level))

/-- The GENERATION of a bank's COMMIT. -/
def commitGen (l : List Block) : Option Nat := (l.find? (fun b => b.magic && b.type == 4)).map Block.gen

/-! ### Reading the store (R407) -/

/-- What a reading of the store finds. `bank` is 1 for B; a tie goes to A (DESIGN CHOICE, notes/assumptions/37.md). -/
structure StoreRead where
  causes : List Nat
  bank : Option Nat
  gen : Nat
  topo : Option Bytes
  licence : Option Bytes
  image : Bytes
  deriving DecidableEq, Repr

/-- The current bank and the highest committed GENERATION. -/
def currentBank (a b : List Block) : Option (Nat × Nat) :=
  match commitGen a, commitGen b with
  | some x, some y => if x < y then some (1, y) else some (0, x)
  | some x, none => some (0, x)
  | none, some y => some (1, y)
  | none, none => none

/-- A block whose GENERATION lies above the highest committed one. -/
def Block.above (b : Block) (cur : Option (Nat × Nat)) : Bool :=
  match cur with
  | some c => decide (c.2 < b.gen)
  | none => true

/-- The payload of the block of a type. -/
def payloadOf (l : List Block) (t : Nat) : Option Bytes := (l.find? (fun b => b.type == t)).map Block.payload

/-- Page, offset and value of the image's entries (R409). -/
def imageEntries : Nat → Bytes → List (Nat × Nat × Nat)
  | 0, _ => []
  | n + 1, bs => if bs.isEmpty then [] else (leAt bs 0 2 % 1024, leAt bs 2 2, leAt bs 4 4) :: imageEntries n (bs.drop 8)

/-- An entry names an RWB register. -/
def entryOk (e : Nat × Nat × Nat) : Bool :=
  decide (0x100 ≤ e.2.1) && decide (e.2.1 ≤ 0x7FC) && decide (e.2.1 % 4 = 0) && rwbBits (pageKindOf e.1) e.2.1 ≠ 0

/-- Reads both banks. An image that names a register other than an RWB one makes the bank bad, so that none of it is applied. -/
def Store.read (st : Store) : StoreRead :=
  let a := blocksOf st.bankA
  let b := blocksOf st.bankB
  let cur := currentBank a b
  let empty := if a.isEmpty ∧ b.isEmpty then [Hc.cfgEmpty] else []
  let half := if (a ++ b).any (fun x => x.above cur) then [Hc.cfgHalf] else []
  match cur with
  | none => ⟨empty ++ half, none, 0, none, none, []⟩
  | some c =>
    let l := if c.1 = 0 then a else b
    let img := (payloadOf l 3).getD []
    let bad := if bankBad l || !((imageEntries img.length img).all entryOk) then [Hc.cfgBad] else []
    let lev := if bankLevel l then [Hc.cfgLevel] else []
    let cs := empty ++ half ++ bad ++ lev
    if cs.isEmpty then ⟨[], some c.1, c.2, payloadOf l 1, payloadOf l 2, img⟩ else ⟨cs, some c.1, c.2, none, none, []⟩

/-- BUP.CFG_GEN and BUP.STATUS.CFG_BANK. -/
def State.syncStore (s : State) : State :=
  let r := s.store.read
  s.onBoard (fun b => b.setFlds Pg.bup [(F.bupCfgGenGeneration, r.gen), (F.bupStatusCfgBank, r.bank.getD 0)])

/-! ### The licence (R413, R414, R475) -/

/-- Features in force, on both pages that show them. -/
def Board.setFeatures (b : Board) (f : Nat) : Board := (b.setFld Pg.lic F.licStatusFeatures f).setFld Pg.mod F.modStatusFeatures f

/-- Why a licence does not verify (R475): 0 when it does. -/
def State.licenceCause (s : State) (l : Bytes) : Nat :=
  let slot := leAt l 192 1
  if s.store.variant ≠ 0 then 5
  else if !(slot == 4 || slot == 5) || !s.keyEnabled slot then 6
  else if !ecdsaOk (s.key slot) (slice l 0 96) (slice l 96 96) then 1
  else if leAt l 8 8 ≠ s.store.serial then 2
  else if leAt l 4 1 = 0 ∨ 3 < leAt l 4 1 then 3
  else if 16 ≤ leAt l 16 4 then 4
  else 0

/-- The licence of a reading of the store takes effect; without one the module runs unlicensed. -/
def State.takeLicence (s : State) (lic : Option Bytes) : State :=
  match lic with
  | none => s.onBoard (fun b => (b.setFeatures 0).setFlds Pg.lic [(F.licStatusResult, 0), (F.licLicSeqSeq, 0)])
  | some l =>
    let c := s.licenceCause l
    s.onBoard (fun b =>
      if c = 0 then (b.setFeatures (leAt l 16 4)).setFlds Pg.lic [(F.licStatusResult, 1), (F.licLicSeqSeq, leAt l 20 4), (F.licLicFailCause, 0)]
      else
        let b1 := (b.setFeatures 0).setFlds Pg.lic [(F.licStatusResult, if c = 5 then 3 else 2), (F.licLicSeqSeq, 0), (F.licLicFailCause, c)]
        if c = 5 then b1.raise Pg.lic F.licEventLicenceRejected else (b1.raise Pg.lic F.licEventLicenceFail).addCause Hc.licence)

/-! ### The image (R409) and the whole of it -/

/-- Applies the image in order, each entry as a host write without an owner test; an entry that its page discards sets CFG_BAD, and the
licence is then absent (R407). -/
def State.applyImage (s : State) (img : Bytes) : State :=
  let n := s.board.cnt Pg.mod Cn.modAccessErrors
  let s1 := (imageEntries img.length img).foldl (fun s e =>
    gateWrite 2 e.1 e.2.1 false (State.storeReg (fun _ _ _ s => s) 2 e.1 e.2.1 e.2.2) s) s
  if s1.board.cnt Pg.mod Cn.modAccessErrors = n then s1 else (s1.onBoard (fun b => b.addCause Hc.cfgBad)).takeLicence none

/-- The configuration part of stage 3 (R394, R407, R417): the store is read, the licence verified, the image applied. -/
def State.configure (s : State) : State :=
  let r := s.store.read
  let s1 := (r.causes.foldl (fun s c => s.onBoard (fun b => b.addCause c)) s).syncStore
  let s2 := ({ s1 with bup := { s1.bup with topo := r.topo } }).takeLicence r.licence
  (s2.syncEngines.applyImage r.image).syncEngines

end Sys2Proof.Machine
end

