-- ==== Sys2Proof/Machine/Bringup.lean ====
section
/-! DEFINITION. Bring-up, CHECKING, HELD, compute reset and the configuration commands (14_bringup: R391 to R427). -/
namespace Sys2Proof.Machine

/-! ### What stage 3 sets (R467, R469, R471, R473, R425, R426) -/

/-- The values that stand in eFuses and on the shelf, as MOD, FUS and LIC show them. -/
def State.syncFuses (s : State) : State :=
  let st := s.store
  let v := st.variant
  s.onBoard (fun b =>
    let b1 := b.setFlds Pg.mod [(F.modStatusVariant, v), (F.modLimitsMultMax, fuseMult v), (F.modLimitsCapW10, fuseCap v),
      (F.modLimitsGroups, fuseGroups v), (F.modCoreFloorCores, fuseFloor v), (F.modFwBuildBuild, st.fwBuild)]
    let b2 := (b1.wr Pg.mod F.modFwVersionPatch.off (BitVec.ofNat 32 (st.fwVersion % 2 ^ 24))).wr64 Pg.fus F.fusSerialLoSerial.off st.serial
    let b3 := b2.setFlds Pg.fus [(F.fusStatusVariant, v), (F.fusFusedMultMax, fuseMult v), (F.fusFusedCapW10, fuseCap v),
      (F.fusFusedGroups, fuseGroups v), (F.fusFusedLicAccept, b2n (decide (v = 0))), (F.fusCoreFloorCores, fuseFloor v),
      (F.fusCountsFactory, st.factory.length)]
    (List.range 8).foldl (fun b n =>
      let k := st.keys.getD n ⟨[], false⟩
      b.setFlds Pg.lic [(F.licSlotKind n, if n < 4 then 1 else if n < 6 then 2 else 3), (F.licSlotEnabled n, b2n (!k.key.isEmpty && !k.revoked)),
        (F.licSlotRevoked n, b2n k.revoked), (F.licSlotKeyCheck n, if k.key.isEmpty then 0 else crc32c k.key % 2 ^ 16)]) b3)

/-- The field log as stage 3 verifies it (R402). -/
def State.syncLog (s : State) : State :=
  s.onBoard (fun b =>
    let b1 := (b.setFlds Pg.fus [(F.fusStatusLogInvalid, b2n !s.store.logValid), (F.fusStatusLogFull, b2n (decide (logMax ≤ s.store.logCount)))]).setFld
      Pg.bup F.bupQuickSinceCount s.store.quickSince
    if s.store.logValid then b1
    else ((b1.raise Pg.fus F.fusEventLogSigFail).addCause Hc.logInvalid).setFld Pg.bup F.bupStatusFullDue 1)

/-- Fuses, map, store and licence; partition 0 gets every enabled core (R159), and the grid starts (R322). How worn the shelf is, is
open. -/
def State.loadAll (s : State) : State :=
  let s1 := (s.syncFuses.syncLog).merge
  let (w, s2) := s1.freeNat
  let on := s2.enabledCores
  let s3 := s2.onBoard (fun b =>
    let b1 := (List.range 16).foldl (fun b p => b.setPartMask p (if p = 0 then maskOfList on else 0)) (b.setFld Pg.shf F.shfWearPercent (w % 101))
    on.foldl (fun b c => b.setFlds (Pg.spx c) [(F.spxSpillBaseLoAddrLo, Lay.spill c % 2 ^ 32), (F.spxSpillBaseHiAddrHi, Lay.spill c / 2 ^ 32)]) b1)
  let s4 := s3.syncShelf.configure
  s4.startGrid (ceilDiv s4.board.gtc 1024 * 1024) (s4.board.fld Pg.tk F.tkPeriodCycles)

/-! ### Stages (R391, R394 to R397) -/

/-- A stage begins. -/
def State.toStage (s : State) (st stage : Nat) : State := s.onBoard (fun b => (b.setState st).setFld Pg.bup F.bupStatusStage stage)

/-- Every enabled core's accumulator in a mode. -/
def State.haccAll (s : State) (m : Nat) : State := s.enabledCores.foldl (fun s c => s.haccMode m c) s

/-- Stage 1 ends: the domains are on in the order of R369, but for cores that fuses or map disable. -/
def State.endSequencing (s : State) : State :=
  let no := unitsOf (ofKind 1 (s.store.factory ++ s.bup.merged))
  let s1 := (List.range 128).foldl (fun s d => if decide (28 ≤ d) && decide (d < 124) && no.contains (d - 28) then s else s.switchOn d) s
  let m := fuseMult s.store.variant
  (s1.onBoard (fun b => b.setFlds Pg.clk [(F.clkProfileMult, m), (F.clkMclkStateCurrent, m), (F.clkMclkStateFusedMax, m)])).syncEngines.toStage
    St.calibrating 2

/-- Stage 5 begins: the test is quick when it was asked for and no full one is due (R395). -/
def State.chooseTest (s : State) : State :=
  let q := s.board.flag Pg.bup F.bupControlQuickReq && !s.board.flag Pg.bup F.bupStatusFullDue
  let n := if q then s.store.quickSince + 1 else 0
  ({ s with store := { s.store with quickSince := n } }).onBoard (fun b =>
    let b1 := b.setFlds Pg.bup [(F.bupStatusQuick, b2n q), (F.bupQuickSinceCount, n)]
    if q then b1 else b1.inc Pg.bup Cn.bupBringupsFull 1)

/-- Engines with good light train. -/
def State.startTraining (s : State) : State :=
  (List.range 48).foldl (fun s e =>
    if s.board.engState e == Eng.lightCheck && s.board.flag (Pg.hb e) F.hbStatusLightOk then s.setEng e Eng.training else s) s

/-- A stage of the given number ends with its findings, and the next begins. -/
def State.endStage (s : State) (stage : Nat) (found : List Found) : State :=
  match stage with
  | 1 => s.endSequencing
  | 2 => (s.toStage St.calibrating 3).haccAll 1
  | 3 => (s.loadAll.toStage St.testing 4).haccAll 2
  | 4 => (((s.findings 1 found).haccAll 0).toStage St.testing 5).chooseTest
  | 5 => ((s.findings 2 found).toStage St.training 6).startTraining
  | 6 => (s.findings 3 found).toStage St.checking 7
  | _ => s

/-- The stage that runs. -/
def State.stage (s : State) : Nat := s.board.fld Pg.bup F.bupStatusStage

/-- BUP.STAGE_MSn. -/
def State.stageMs (s : State) (ms : Nat) : State := s.onBoard (fun b => b.setFld Pg.bup (F.bupStageMsMs (s.stage - 1)) ms)

/-- BRINGUP_STAGE_END (R394): stage 2 ends when the mesh has locked. -/
def execBringupStageEnd (ms : Nat) (found : List Found) (s : State) : Host.Outcome State Fault Refusal :=
  done s (
    let n := s.stage
    if n = 0 ∨ 6 < n ∨ (n = 2 ∧ s.board.meshLocked = false) then s else (s.stageMs ms).endStage n found)

/-- STAGE_TIMEOUT (R397): the stage ends and the next begins; stage 2 follows R352. -/
def execStageTimeout (ms : Nat) (found : List Found) (s : State) : Host.Outcome State Fault Refusal :=
  done s (
    let n := s.stage
    if n = 0 ∨ 6 < n then s
    else if n = 2 then s.loseLock
    else
      ((s.stageMs ms).onBoard (fun b =>
        ((b.addCause Hc.stageTimeout).inc Pg.bup Cn.bupStageTimeouts 1).raise Pg.bup F.bupEventStageTimeout)).endStage n found)

/-! ### CHECKING (R406, R410, R415) -/

/-- Group g matches its entry. A dark group is one without a session. -/
def State.groupMatches (s : State) (t : Bytes) (g : Nat) : Bool :=
  let e := topoEntry t g
  let b := s.board
  let up := s.sessionUp g
  let p := Pg.nol g
  if e.optional && !up then true
  else
    decide (b.groupRole g = e.role) && decide (b.fld Pg.hbGlobal (F.hbGlobalGroupCfgServerGroup g) = e.server) &&
    decide (b.fld Pg.hbGlobal (F.hbGlobalGroupCfgPeerGroup g) = e.peerGroup) && decide (b.fld Pg.hbGlobal (F.hbGlobalGroupCfgPeerRack g) = e.peerRack) &&
    (if e.role = 0 then !up
     else
      up && decide (e.minEngines ≤ b.fld p F.nolStatusEnginesUp) && decide (e.minLevel ≤ s.sesLevel g) &&
        (if e.role = 2 then decide (b.fld p F.nolPeerIdRole = 2) && decide (b.fld p F.nolPeerIdRack = e.peerRack) && decide (b.fld p F.nolPeerIdGroup = e.peerGroup)
         else decide (b.fld p F.nolPeerIdRole = 3)))

/-- The groups that fail to match, and a rack mismatch. -/
def State.topoFails (s : State) : List Nat × Bool :=
  match s.bup.topo with
  | none => ([], false)
  | some t => ((List.range 12).filter (fun g => !s.groupMatches t g), s.board.fld Pg.mem F.memRackIdIndex ≠ topoRack t)

/-- Every group that is not OPTIONAL and has a role has a session UP. -/
def State.sessionsReady (s : State) : Bool :=
  match s.bup.topo with
  | none => true
  | some t => (List.range 12).all (fun g => let e := topoEntry t g; e.role == 0 || e.optional || s.sessionUp g)

/-- Sets or clears bits of BUP.HELD_CAUSE. -/
def Board.putCause (b : Board) (bit : Nat) (on : Bool) : Board :=
  let v := b.fld Pg.bup F.bupHeldCauseCauses
  b.setFld Pg.bup F.bupHeldCauseCauses (if on then setBit v bit else clearBit v bit)

/-- A HELD cause stands. -/
def Board.held (b : Board) : Bool := decide (b.fld Pg.bup F.bupHeldCauseCauses ≠ 0)

/-- CHECKING compares: the causes that it tests are set or cleared, an accepted one stays clear; with none standing SERVICE follows at the
next grid point. -/
def State.check (s : State) : State :=
  let bad := s.topoFails
  let ok := fun (i : Nat) => !s.bup.accepted.testBit i
  let log := if s.bup.afterReset then s.board.fld Pg.bup F.bupHeldCauseCauses |>.testBit Hc.logInvalid else s.board.flag Pg.fus F.fusStatusLogInvalid && ok Hc.logInvalid
  let (ms, s1) := s.freeNat
  let s2 := s1.onBoard (fun b =>
    let b1 := b.setFlds Pg.bup [(F.bupTopoMismatchGroups, maskOfList bad.1), (F.bupTopoMismatchRack, b2n bad.2)]
    let b2 := (((b1.putCause Hc.topology (!bad.1.isEmpty || bad.2)).putCause Hc.belowFloor
      (decide (s.enabledCores.length < fuseFloor s.store.variant) && ok Hc.belowFloor)).putCause Hc.memory s.memoryShort).putCause Hc.logInvalid log
    let b3 := if b.fld Pg.bup (F.bupStageMsMs 6) = 0 ∧ s.stage = 7 then b2.setFld Pg.bup (F.bupStageMsMs 6) ms else b2
    b3.setFld Pg.bup F.bupStatusStage 0)
  let s3 : State := { s2 with bup := { s2.bup with afterReset := false } }
  if s3.board.held then s3.enterHeld else { s3 with bup := { s3.bup with toService := true } }

/-- CHECKING_COMPLETE (R415): every required session is UP, or the sessions are those that stayed UP through a compute reset. -/
def execCheckingComplete (s : State) : Host.Outcome State Fault Refusal :=
  done s (if decide (s.board.st = St.checking) && !s.bup.toService && (s.bup.afterReset || s.sessionsReady) then s.check else s)

/-- TOPO_WAIT (R415): CHECKING compares without waiting further. -/
def execTopoWait (s : State) : Host.Outcome State Fault Refusal :=
  done s (if decide (s.board.st = St.checking) && !s.bup.toService then s.check else s)

/-- The EVENT bits whose class C faults lead to HELD (R393, R402). -/
def heldBit (k : PageKind) (bit : Nat) : Bool :=
  match k with
  | .drm => bit == F.drmEventChannelDown.lsb
  | .fabSpine => bit == F.fabSpineEventLinkFault.lsb
  | .pwrTile => bit == F.pwrTileEventTileOff.lsb
  | .fus => bit == F.fusEventLogFull.lsb
  | .clk => bit == F.clkEventCdcTimeout.lsb
  | _ => false

/-- HELD_ENTRY (R416): a class C fault. -/
def execHeldEntry (page bit : Nat) (s : State) : Host.Outcome State Fault Refusal :=
  done s (if s.alive && s.present page && s.powered page && heldBit (pageKindOf page) bit then s.classC page ⟨evtOff, bit, bit⟩ else s)

/-! ### Commands (R398, R411, R417, R423) -/

/-- BUP.CMD_STATUS. -/
def Board.cmdEnd (b : Board) (op cause : Nat) : Board := b.setFlds Pg.bup [(F.bupCmdStatusOp, op), (F.bupCmdStatusCause, cause)]

/-- A command is done. -/
def State.cmdDone (s : State) (op : Nat) : State := s.onBoard (fun b => b.cmdEnd op 0)

/-- A command that is refused for the state or for its mask. -/
def State.cmdRefused (s : State) (op cause : Nat) : State :=
  s.onBoard (fun b => ((b.cmdEnd op cause).inc Pg.bup Cn.bupCmdsRefused 1).raise Pg.bup F.bupEventCmdRefused)

/-- A configuration command that fails. -/
def State.cfgRefused (s : State) (op cause : Nat) : State := s.onBoard (fun b => (b.cmdEnd op cause).raise Pg.bup F.bupEventCfgRefused)

/-- POWER_ON (R377, R391, R490): refused outside STANDBY and while the coolant is too warm or too slow. -/
def State.bupPowerOn (s : State) : State :=
  if s.board.st ≠ St.standby ∨ s.board.flag Pg.thm F.thmStatusInletHigh = true ∨ s.board.flag Pg.thm F.thmStatusFlowLow = true then s.cmdRefused 1 1
  else
    let s1 := s.cmdDone 1
    ({ s1 with bup := { s1.bup with powerOn := true } }).tryPowerOn

/-- POWER_OFF (R392). -/
def State.bupPowerOff (s : State) : State :=
  if s.board.st = St.off ∨ s.board.st = St.standby then s.cmdRefused 2 1
  else (((s.cmdDone 2).haltBringup.allOff).latchOff 1).onBoard (fun b => b.setState St.standby)

/-- RECHECK (R417). -/
def State.bupRecheck (s : State) : State :=
  if s.board.st ≠ St.held then s.cmdRefused 3 1
  else
    let s1 := (s.cmdDone 3).onBoard (fun b => [1, 2, 3, 4, 5, 10].foldl (fun b i => b.putCause i false) b)
    ((List.range 12).foldl State.reofferGroup s1.configure).toStage St.checking 7

/-- ACCEPT (R417). -/
def State.bupAccept (s : State) (mask : Nat) : State :=
  if s.board.st ≠ St.held then s.cmdRefused 4 1
  else if bitsWithout mask 0x2C0 ≠ 0 then s.cmdRefused 4 2
  else
    let s1 : State := { s with bup := { s.bup with accepted := s.bup.accepted ||| mask } }
    ((s1.cmdDone 4).onBoard (fun b => (bitList 16 mask).foldl (fun b i => b.putCause i false) b)).toStage St.checking 7

/-- COMPUTE_RESET (R418, R420). -/
def State.bupReset (s : State) : State :=
  if s.board.st ≠ St.held ∧ s.board.st ≠ St.service then s.cmdRefused 5 1
  else
    let s1 := s.cmdDone 5
    { s1 with bup := { s1.bup with resetPending := true } }

/-- The states in which the configuration is written (R410). -/
def State.cfgState (s : State) : Bool := decide (St.calibrating ≤ s.board.st) && decide (s.board.st ≤ St.computeReset)

/-- CFG_BEGIN (R411). -/
def State.cfgStart (s : State) : State :=
  if !s.cfgState then s.cmdRefused 6 1
  else
    let s1 : State := { s with bup := { s.bup with staging := [], stagingOver := false } }
    (s1.cmdDone 6).onBoard (fun b => b.setFld Pg.bup F.bupCfgStagedBytes 0)

/-- CFG_DATA: 4 B join the staging buffer of 1 MiB. -/
def State.cfgAppend (s : State) (v : Word) : State :=
  if !s.cfgState then s
  else if 2 ^ 20 < s.bup.staging.length + 4 then { s with bup := { s.bup with stagingOver := true } }
  else
    let t := s.bup.staging ++ toLE 4 v.toNat
    ({ s with bup := { s.bup with staging := t } }).onBoard (fun b => b.setFld Pg.bup F.bupCfgStagedBytes t.length)

/-- The staged blocks pass R407, R408 and R411. -/
def State.stagedGood (s : State) : Bool :=
  let l := blocksOf s.bup.staging
  !bankBad l && !bankLevel l && l.all (fun b => decide (b.gen = s.store.read.gen + 1))

/-- The shelf takes no configuration or key (R378, R380). -/
def State.shelfBusy (s : State) : Bool :=
  s.board.flag Pg.pwr F.pwrGlobalStatusHoldupGaugeMismatch || s.board.flag Pg.pwr F.pwrGlobalStatusFlushing

/-- CFG_COMMIT (R411): the bank that is not current takes the staged blocks. -/
def State.cfgWrite (s : State) : State :=
  if !s.cfgState then s.cmdRefused 7 1
  else if s.bup.stagingOver then s.cfgRefused 7 3
  else if !s.stagedGood then s.cfgRefused 7 4
  else if s.shelfBusy then s.cfgRefused 7 5
  else
    let s1 : State := if s.store.read.bank = some 0 then { s with store := { s.store with bankB := s.bup.staging } }
      else { s with store := { s.store with bankA := s.bup.staging } }
    ((s1.cmdDone 7).onBoard (fun b => (b.inc Pg.bup Cn.bupCfgCommits 1).raise Pg.bup F.bupEventCfgCommitted)).syncStore

/-- A bank without the blocks above the highest committed GENERATION. -/
def bankBelow (bank : Bytes) (cur : Option (Nat × Nat)) : Bytes := (((blocksOf bank).filter (fun b => !b.above cur)).map Block.raw).flatten

/-- CFG_REVERT (R411). -/
def State.cfgErase (s : State) : State :=
  let a := blocksOf s.store.bankA
  let b := blocksOf s.store.bankB
  let cur := currentBank a b
  if s.board.st ≠ St.held then s.cmdRefused 8 1
  else if (a ++ b).any (fun x => x.above cur) then
    let s1 := s.cmdDone 8
    ({ s1 with store := { s1.store with bankA := bankBelow s1.store.bankA cur, bankB := bankBelow s1.store.bankB cur } }).syncStore
  else
    match cur with
    | none => s.cfgRefused 8 6
    | some c =>
      if (commitGen (if c.1 = 0 then b else a)).isNone then s.cfgRefused 8 6
      else
        let s1 := s.cmdDone 8
        ({ s1 with store := if c.1 = 0 then { s1.store with bankA := [] } else { s1.store with bankB := [] } }).syncStore

/-- What a write of an OP to BUP.CMD does; the other codes do nothing. -/
def State.bupCmd (s : State) (op mask : Nat) : State :=
  match op with
  | 1 => s.bupPowerOn
  | 2 => s.bupPowerOff
  | 3 => s.bupRecheck
  | 4 => s.bupAccept mask
  | 5 => s.bupReset
  | 6 => s.cfgStart
  | 7 => s.cfgWrite
  | 8 => s.cfgErase
  | _ => s

/-- The owning host writes BUP.CMD. -/
def bupWrite (l : Link) (op mask : Nat) (s : State) : State := hostWrite l Pg.bup F.bupCmdOp.off (fun s => s.bupCmd op mask) s

/-- POWER_ON (R391). -/
def execPowerOn (link : Link) (s : State) : Host.Outcome State Fault Refusal := done s (bupWrite link 1 0 s)

/-- POWER_OFF (R392). -/
def execPowerOff (link : Link) (s : State) : Host.Outcome State Fault Refusal := done s (bupWrite link 2 0 s)

/-- RECHECK (R417). -/
def execRecheck (link : Link) (s : State) : Host.Outcome State Fault Refusal := done s (bupWrite link 3 0 s)

/-- ACCEPT (R417). -/
def execAcceptCmd (link : Link) (mask : Nat) (s : State) : Host.Outcome State Fault Refusal := done s (bupWrite link 4 (mask % 65536) s)

/-- COMPUTE_RESET (R418). -/
def execComputeReset (link : Link) (s : State) : Host.Outcome State Fault Refusal := done s (bupWrite link 5 0 s)

/-- CFG_BEGIN (R411). -/
def execCfgBegin (link : Link) (s : State) : Host.Outcome State Fault Refusal := done s (bupWrite link 6 0 s)

/-- CFG_DATA (R411). -/
def execCfgData (link : Link) (value : Word) (s : State) : Host.Outcome State Fault Refusal :=
  done s (hostWrite link Pg.bup F.bupCfgDataData.off (fun s => s.cfgAppend value) s)

/-- CFG_COMMIT (R411). -/
def execCfgCommit (link : Link) (s : State) : Host.Outcome State Fault Refusal := done s (bupWrite link 7 0 s)

/-- CFG_REVERT (R411). -/
def execCfgRevert (link : Link) (s : State) : Host.Outcome State Fault Refusal := done s (bupWrite link 8 0 s)

/-! ### Compute reset (R418 to R420) -/

/-- Mismatches that make a core DEGRADED (R67). -/
def degradeAt : Nat := 3

/-- A core's spares for sites that have degraded it, from the entries made since the last merge (R67, R418). -/
def State.resetSpares (s : State) (c : Nat) : State :=
  let new := (ofKind 2 s.bup.sinceMerge).filter (fun d => d.unit == c && decide (degradeAt ≤ Tbl.get (fun _ => 0) (s.core c).siteErrs d.detail))
  let m := unionDefects (s.bup.merged ++ s.bup.applied ++ new)
  if new.isEmpty || decide (16 < (badSites m c).length) then s
  else
    let s1 : State := { s with bup := { s.bup with applied := s.bup.applied ++ new } }
    (s1.syncSites m c).onBoard (fun b => b.setFld (Pg.core c) F.coreStatusDegraded 0)

/-- A core's arrays, vector registers, strands, stream engine and accumulator. -/
def State.resetCore (s : State) (c : Nat) : State :=
  ((s.resetSpares c).setCore c Core.init).onBoard (fun b =>
    (b.setFlds (Pg.core c) [(F.coreStatusBusy, 0), (F.coreStatusQuarter, 0), (F.coreSeStateInUse, 0), (F.coreSeStatePeak, 0), (F.coreStrandStateLive, 0),
      (F.coreStrandStatePeak, 0), (F.coreWbufStateFillSealed, 0)]).setFlds (Pg.spx c)
      [(F.spxStatusSparseActive, 0), (F.spxStatusHaccMode, 0), (F.spxStatusSpillActive, 0), (F.spxHaccStateEntriesUsed, 0), (F.spxSpillUsedRecords, 0)])

/-- Memory that a compute reset zero-fills: working stores, spill regions, WRITABLE tier 0 pages. -/
def State.resetMemory (s : State) : State :=
  let ps := (s.tier.map.filter (fun e => e.2.valid && e.2.writable && e.2.tier == 0)).map Prod.fst
  let m0 := memClear (memClear s.mem 0 Lay.windowsEnd) (Lay.spill 0) (Lay.spill 96)
  { s with mem := ps.foldl (fun m p => memClear m (p * Lay.page) ((p + 1) * Lay.page)) m0 }

/-- Some page of the context's slice is poisoned. -/
def State.slicePoison (s : State) (n : Nat) : Bool := s.tier.map.any (fun e => s.inPaged n e.1 && e.2.poison)

/-- A context after a compute reset (R165, R418): READY with its indices cleared; FREE when its data must be loaded again. -/
def State.resetCtx (s : State) (n : Nat) : State :=
  let v := s.cstate n
  if v = Cs.free then s
  else if v = Cs.loading ∨ s.slicePoison n = true then
    let s1 : State := { s with tier := { s.tier with loads := s.tier.loads.filter (fun l => l.ctx ≠ n) } }
    ((s1.clearCtx n).setCstate n Cs.free).syncLoads
  else (s.clearCtx n).setCstate n Cs.ready

/-- The pages whose counters and EVENT bits a compute reset clears (R467). -/
def resetPages : List Nat :=
  (List.range 96).map Pg.core ++ (List.range 96).map Pg.spx ++ [Pg.fabSpine, Pg.crdGlobal] ++ (List.range 24).map Pg.fabTile ++
    (List.range 24).map Pg.crdTile ++ (List.range 4).map Pg.ful

/-- A compute reset at grid point n: it passes through COMPUTE_RESET to the CHECKING that follows it. -/
def State.computeReset (s : State) (n : Nat) : State :=
  let b0 : Board := { s.board with gtc := max s.board.gtc (s.gridPoint n) }
  let s1 : State := { s with
    board := (b0.setState St.computeReset).setFld Pg.bup F.bupStatusStage 8
    bup := { s.bup with resetPending := false, heldAbort := false, afterReset := true, toService := false }
    crown := { s.crown with resets := s.crown.resets.filter (fun t => decide (n < t)), resumeAt := none } }
  let s2 := ((s1.notify computeSide).lastFault computeSide 3).flushSide computeSide
  let s3 : State := { s2 with clk := { s2.clk with inReset := s2.clk.inReset.erase computeSide } }
  let s4 := s3.treesReset
  let s5 := (List.range 96).foldl State.resetCore s4
  let s6 := (List.range 256).foldl State.resetCtx s5
  let s7 := (List.range 16).foldl (fun s p => s.setRunning p none) { s6 with parts := [], feeds := [] }
  let s8 := ((List.range 16).foldl State.syncFeed s7).resetMemory
  let wires := (ofKind 5 s8.bup.sinceMerge).filter (fun d => !s8.bup.applied.contains d)
  let s9 : State := { s8 with bup := { s8.bup with applied := s8.bup.applied ++ wires }, fab := { s8.fab with seamReplays := [] } }
  let s10 := s9.syncSeams (unionDefects (s9.bup.merged ++ s9.bup.applied))
  s10.onBoard (fun b =>
    let b1 := resetPages.foldl Board.keepC (resetPages.foldl Board.resetCounters b)
    ((b1.putCause Hc.classC false).inc Pg.bup Cn.bupComputeResets 1).setState St.checking)

/-- COMPUTE_RESET_TAKE_EFFECT (R418, R419): the coming grid point is the target of a compute reset. -/
def State.resetsAt (s : State) (n : Nat) : State :=
  let may := decide (s.board.st = St.service) || decide (s.board.st = St.held)
  let due := s.bup.resetPending || s.crown.resets.any (fun t => decide (t ≤ n))
  if may && due && s.gridRuns then s.computeReset n else s

/-- COMPUTE_RESET_TAKE_EFFECT (R419). -/
def execComputeResetTakeEffect (s : State) : Host.Outcome State Fault Refusal := done s (s.resetsAt (s.crown.tick + 1))

/-! ### The field-defect log (R402) -/

/-- What an in-service entry does at once (R310, R370, R384). -/
def State.applyFound (s : State) (f : Found) : State :=
  if f.kind = 8 then
    s.onBoard (fun b =>
      let fld := if bitsOf f.detail 8 8 = 0 then F.hbTxBadLanes else F.hbRxBadLanes
      b.setFld (Pg.hb f.unit) fld (setBit (b.fld (Pg.hb f.unit) fld) (bitsOf f.detail 4 0)))
  else if f.kind = 9 then
    if phaseThere f.unit (f.detail % 256) then
      (s.onBoard (fun b => b.setFld (Pg.pwrTile f.unit) (F.pwrTilePhaseState (f.detail % 256)) (bitsOf f.detail 17 16))).syncLimit f.unit
    else s
  else if f.kind = 12 then
    ({ s with pwr := { s.pwr with sweatTiles := if s.pwr.sweatTiles.contains f.unit then s.pwr.sweatTiles else s.pwr.sweatTiles ++ [f.unit] } }).syncLimit f.unit
  else s

/-- FIELD_DEFECT_APPEND (R402): an in-service entry. -/
def execFieldDefectAppend (entry : Found) (s : State) : Host.Outcome State Fault Refusal :=
  done s (if s.alive then (s.appendDefect { entry with source := 4 }).applyFound entry else s)

/-- LOG_PROGRAM (R402): the shelf programs what waits in staging. -/
def execLogProgram (s : State) : Host.Outcome State Fault Refusal :=
  done s (if s.board.on.contains 3 then s.drainLogs else s)

end Sys2Proof.Machine
end

