-- ==== Sys2Proof/Machine/HostRegs.lean ====
section
/-! DEFINITION. What registers read as, what host accesses to BAR0 do, and the commands that are writes to one register (16_register_pages:
R453 to R479; 15: R433; and the chapters of the registers). -/
namespace Sys2Proof.Machine

/-! ### Records as bytes (R442, R447) -/

/-- The 32 bytes of an event record. -/
def EvRec.bytes (e : EvRec) : Bytes :=
  toLE 8 e.gtc ++ toLE 2 (e.page % 1024 + 1024 * e.cls) ++ toLE 2 e.inst ++ toLE 1 e.bit ++ toLE 1 (b2n e.first + 2 * b2n e.last) ++ toLE 1 e.tile ++
    toLE 1 0 ++ toLE 4 e.count ++ toLE 4 e.seq ++ toLE 8 e.detail

/-- The 32 bytes of a trace record. -/
def TraceRec.bytes (t : TraceRec) : Bytes :=
  toLE 8 t.gtc ++ toLE 1 t.tile ++ toLE 1 t.unit ++ toLE 1 t.kind ++ toLE 1 t.ctx ++ toLE 4 t.seq ++ slice t.payload 0 16

/-- The 32 records that TRC's window shows from RI (R446). -/
def Board.logWindow (b : Board) : Bytes :=
  match b.fld Pg.trc F.trcWindowSrc with
  | 0 => (b.ringC.recs.take 32).flatMap EvRec.bytes
  | 1 => (b.ringB.recs.take 32).flatMap EvRec.bytes
  | 2 => ((Tbl.get noTrace b.traces (b.fld Pg.trc F.trcWindowTile)).recs.take 32).flatMap TraceRec.bytes
  | _ => []

/-! ### Registers that follow other state -/

/-- The pending pages of EVT (R476). -/
def Board.pendPages (b : Board) (c : Bool) : List Nat := (List.range 0x320).filter (fun p => if c then b.pageCPending p else b.pagePending p)

/-- EVT.PENDw or EVT.CPENDw. -/
def Board.pendWord (b : Board) (c : Bool) (w : Nat) : Nat := maskOfList (((b.pendPages c).filter (fun p => p / 32 == w)).map (· % 32))

/-- EVT.FIRST or EVT.C_FIRST. -/
def Board.firstPend (b : Board) (c : Bool) : Nat :=
  match (b.pendPages c).head? with
  | some p => p + 2 ^ 31
  | none => 0

/-- The published entry of the merged map that MAP_INDEX selects (R405). -/
def State.mapEntry (s : State) : Bytes :=
  match s.bup.merged[s.board.fld Pg.fus F.fusMapIndexIndex]? with
  | some d => d.bytes d.source d.bringup
  | none => []

/-- Word i of a little-endian value. -/
def wordOf (v i : Nat) : Nat := v / 2 ^ (32 * i) % 2 ^ 32

/-- A register with a field whose value at a read is open: a phase's current and duty (R389), and the strands that a running task has
live (R93, notes/assumptions/2.md). -/
def State.volatile (s : State) (page off : Nat) : Bool :=
  match pageInfo page with
  | (.pwrTile, _) => decide (0x100 ≤ off) && decide (off < 0x174)
  | (.core, c) => off == F.coreStrandStateLive.off && (s.core c).task.isSome && (s.core c).doneAt.isNone
  | _ => false

/-- A read of such a field draws its free values. -/
def State.afterRead (s : State) (page off : Nat) : State := if s.volatile page off then { s with freeCtr := s.freeCtr + 2 } else s

/-- CORE.IDENT's Reset column gives each page its own core, tile and position (R93); every other register word stands as it is. -/
def identWord (page off : Nat) (w : Word) : Word :=
  match pageInfo page with
  | (.core, i) =>
    if off = F.coreIdentCoreIndex.off then fset (fset (fset w F.coreIdentCoreIndex i) F.coreIdentTile (i / 4)) F.coreIdentPosition (i % 4) else w
  | _ => w

/-- A register of a page that is present and powered. A fulling page that is powered has its quadrant on, and its outputs are held in HELD
(R277, R278). -/
def State.view (s : State) (page off : Nat) : Nat :=
  let b := s.board
  let w := b.rd page off
  let i := (pageInfo page).2
  match pageKindOf page with
  | .core =>
    if s.volatile page off then (fset w F.coreStrandStateLive (Config.freeNat s.freeCtr % 16385)).toNat
    else (identWord page off w).toNat
  | .spx =>
    if off = F.spxStatusLinkCompress.off then
      (fset w F.spxStatusLinkCompress (b2n (s.mayCompress i && (List.range 12).any (fun g => b.groupRole g == 2 && s.sessionUp g && s.sesFeature g 1)))).toNat
    else w.toNat
  | .tk => if off = F.tkGtcLoGtc.off then wordOf b.gtc 0 else if off = F.tkGtcHiGtc.off then wordOf b.gtc 1 else w.toNat
  | .clk =>
    if off = F.clkStatusStepping.off then (fset w F.clkStatusStepping (b2n (decide (b.gtc < s.clk.stepEnd)))).toNat else w.toNat
  | .evt =>
    if off = F.evtStatusPending.off then b2n (!(b.pendPages false).isEmpty) + 2 * b2n (!(b.pendPages true).isEmpty)
    else if 0x100 ≤ off ∧ off < 0x180 then b.pendWord false ((off - 0x100) / 4)
    else if 0x180 ≤ off ∧ off < 0x200 then b.pendWord true ((off - 0x180) / 4)
    else if off = F.evtFirstPage.off then b.firstPend false
    else if off = F.evtCFirstPage.off then b.firstPend true
    else w.toNat
  | .mem =>
    let q := (F.memQueryEntryEntry 0).off
    if q ≤ off ∧ off < q + 16 then wordOf (s.tier.entry (b.fld Pg.mem F.memQueryPagePage)).toNat ((off - q) / 4) else w.toNat
  | .fus =>
    let q := (F.fusMapEntryEntry 0).off
    if q ≤ off ∧ off < q + 16 then leAt s.mapEntry (off - q) 4 else w.toNat
  | .shf => if off = F.shfStatusWriteAllowed.off then (fset w F.shfStatusWriteAllowed (b2n !s.shelfLocked)).toNat else w.toNat
  | .ful =>
    if off = F.fulStatusQuadOn.off then (fset (fset w F.fulStatusQuadOn 1) F.fulStatusOutputsHeld (b2n (decide (b.st = St.held)))).toNat else w.toNat
  | .nol => if off = F.nolLocalFeaturesFeatures.off then s.localFeatures i else w.toNat
  | .role => if off = F.roleStatusIsDeputy.off then (fset w F.roleStatusIsDeputy (b2n (decide (s.deputyRack = s.rack)))).toNat else w.toNat
  | .pwrTile =>
    if s.volatile page off && decide (w.toNat % 4 < 3) then
      (fset (fset w (F.pwrTilePhaseCurrent 0) (Config.freeNat s.freeCtr)) (F.pwrTilePhaseDuty 0) (Config.freeNat (s.freeCtr + 1))).toNat
    else w.toNat
  | .trc =>
    if off = F.trcIndexWi.off then let r := b.ringAt; r.2 % 2 ^ 16 + 2 ^ 16 * ((r.2 + 2 ^ 17 - r.1) % 2 ^ 16)
    else if off = F.trcFillC.off then b.ringC.recs.length + 2 ^ 16 * b.ringB.recs.length
    else w.toNat
  | _ => w.toNat

/-! ### The common header (R458 to R462) -/

/-- PAGE_ID, PAGE_LEVEL and PAGE_CAPS. -/
def pageId (page : Nat) : Nat := (pageInfo page).2 + 2 ^ 16 * (pageKindOf page).blockType
def pageLevel (k : PageKind) : Nat := k.lowest + 0x300
def State.pageCaps (s : State) (page : Nat) : Nat :=
  let k := pageKindOf page
  b2n (s.present page) + 2 * b2n (s.present page && s.powered page) + 4 * b2n (decide (0 < counterCount k)) + 8 * b2n (hasWindow k) + 256 * counterCount k

/-- FAULT_CLASS. -/
def Board.faultClass (b : Board) (page : Nat) : Nat := ((List.range 16).map (fun i => b.classOf page i * 4 ^ i)).sum

/-- A word of a counter: the copy of the latest snapshot, or the live value where the page follows it. -/
def State.cntWord (s : State) (page off : Nat) : Nat :=
  let t := if followsLive (pageKindOf page) && !s.gridRuns then s.board.live else s.board.snap
  wordOf (Tbl.get zero64 t (cntKey page off)).toNat (off / 4 % 2)

/-- A word of an observation window. -/
def State.windowWord (s : State) (page off : Nat) : Nat :=
  match pageKindOf page with
  | .tel => wordOf (Tbl.get zero64 s.board.image (s.board.fld Pg.tel F.telSnapPagePage * 128 + (off - 0xC00) / 8)).toNat (off / 4 % 2)
  | .trc => leAt s.board.logWindow (off - 0xC00) 4
  | _ => 0

/-- What a register of a page with the common header reads as. A page that is absent or unpowered shows its identity, else what its tables
give as reset (R89, R466). -/
def State.regValue (s : State) (page off : Nat) : Nat :=
  let k := pageKindOf page
  if k == .reserved || k == .msixTable || k == .msixPba then 0
  else if off = 0x000 then pageId page
  else if off = 0x004 then pageLevel k
  else if off = 0x008 then s.pageCaps page
  else if off = 0x020 then s.board.faultClass page
  else if !s.present page || !s.powered page then (if off < 0x800 then (identWord page off (resetWord k off)).toNat else 0)
  else if 0xC00 ≤ off then s.windowWord page off
  else if 0x800 ≤ off then (if counterAt k off then s.cntWord page off else 0)
  else s.view page off

/-! ### Reads (R453 to R457) -/

/-- A link's read of a 32-bit register: a low word latches its high word, and the next read of that returns what was latched (R455). -/
def State.readReg (l page off : Nat) (s : State) : Nat × State :=
  let k := pageKindOf page
  let none' := fun (_ : Nat) => (none : Option Word)
  if k == .msixTable then (if off < 0x140 then (s.board.msixRd l false off).toNat else 0, s)
  else if k == .msixPba then (if off < 8 then (s.board.msixRd l true off).toNat else 0, s)
  else if isLow k off then
    (s.regValue page off, s.onBoard (fun b => { b with latch := Tbl.set none' b.latch (latchKey l page (off + 4)) (some (BitVec.ofNat 32 (s.regValue page (off + 4)))) }))
  else
    match Tbl.get none' s.board.latch (latchKey l page off) with
    | some w => (w.toNat, s.onBoard (fun b => b.dropLatch l page off))
    | none => (s.regValue page off, s.afterRead page off)

/-- A 32-bit BAR0 read is counted. -/
def State.read32 (l page off : Nat) (s : State) : Nat × State := State.readReg l page off (s.onBoard (fun b => b.inc Pg.mod Cn.modBar0Reads 1))

/-- A BAR0 read (R453): with ACLK stopped it completes with all ones; in OFF nothing answers. -/
def State.bar0Read (l addr len : Nat) (s : State) : State :=
  let a := addr % 2 ^ 22
  let page := a / 4096
  let off := a % 4096
  if s.board.st = St.off then s
  else if s.aclkStopped then s.onBoard (fun b => b.emit (.bar0 l (2 ^ (8 * len) - 1)))
  else if len = 4 ∧ off % 4 = 0 then
    let (v, s1) := s.read32 l page off
    s1.onBoard (fun b => b.emit (.bar0 l v))
  else if len = 8 ∧ off % 8 = 0 then
    let (v, s1) := s.read32 l page off
    let (w, s2) := s1.read32 l page (off + 4)
    s2.onBoard (fun b => b.emit (.bar0 l (v + 2 ^ 32 * w)))
  else s.onBoard (fun b => ((b.inc Pg.mod Cn.modBar0Reads 1).accErr page off 5 l).emit (.bar0 l 0xFFFFFFFF))

/-- BAR0_READ (R453). -/
def execBar0Read (link : Link) (addr len : Nat) (s : State) : Host.Outcome State Fault Refusal := done s (s.bar0Read (linkIdx link) addr len)

/-- LOW_WORD_READ (R455): a BAR0 read of the low word of a 64-bit register. -/
def execLowWordRead (link : Link) (page off : Nat) (s : State) : Host.Outcome State Fault Refusal :=
  done s (if isLow (pageKindOf page) off && decide (page < 1024) then s.bar0Read (linkIdx link) (4096 * page + off) 4 else s)

/-! ### Ownership (R433) -/

/-- CLAIM by a link. -/
def Board.claim (b : Board) (l : Nat) : Board :=
  match b.owner with
  | none => b.setOwner (l + 1)
  | some o => if o = l then b else b.inc Pg.tel Cn.telClaimRefused 1

/-- RELEASE by a link. -/
def Board.release (b : Board) (l : Nat) : Board := if b.owner == some l then b.setOwner 0 else b

/-- CLAIM (R433). -/
def execClaim (link : Link) (s : State) : Host.Outcome State Fault Refusal :=
  done s (hostWrite link Pg.tel F.telClaimClaim.off (fun s => s.onBoard (fun b => b.claim (linkIdx link))) s)

/-- RELEASE_OWNER (R433). -/
def execReleaseOwner (link : Link) (s : State) : Host.Outcome State Fault Refusal :=
  done s (hostWrite link Pg.tel F.telClaimRelease.off (fun s => s.onBoard (fun b => b.release (linkIdx link))) s)

/-! ### Keys (R471 to R474) -/

/-- A slot of LIC as its key stands. -/
def State.syncSlot (s : State) (n : Nat) : State :=
  let k := s.store.keys.getD n ⟨[], false⟩
  s.onBoard (fun b => b.setFlds Pg.lic [(F.licSlotEnabled n, b2n (!k.key.isEmpty && !k.revoked)), (F.licSlotRevoked n, b2n k.revoked),
    (F.licSlotKeyCheck n, if k.key.isEmpty then 0 else crc32c k.key % 2 ^ 16)])

/-- REVOKE of a slot: an eFuse is blown; the management slots discard it. -/
def State.revokeSlot (s : State) (src n : Nat) : State :=
  if 6 ≤ n then s.onBoard (fun b => b.accErr Pg.lic (F.licSlotCmdRevoke n).off 2 src)
  else
    let k := s.store.keys.getD n ⟨[], false⟩
    (({ s with store := { s.store with keys := putAt s.store.keys n { k with revoked := true } } }).syncSlot n).onBoard (fun b =>
      b.raise Pg.lic F.licEventKeyRevoked)

/-- KEY_DATA: one more staged word; a ninth is discarded. -/
def State.stageKey (s : State) (src : Nat) (v : Word) : State :=
  if 8 ≤ s.mgmt.keyWords.length then s.onBoard (fun b => b.accErr Pg.lic F.licKeyDataData.off 2 src)
  else
    ({ s with mgmt := { s.mgmt with keyWords := s.mgmt.keyWords ++ [v] } }).onBoard (fun b => b.setFld Pg.lic F.licKeyStatusWords (s.mgmt.keyWords.length + 1))

/-- KEY_CMD.CLEAR. -/
def State.clearKey (s : State) : State :=
  ({ s with mgmt := { s.mgmt with keyWords := [] } }).onBoard (fun b => b.setFld Pg.lic F.licKeyStatusWords 0)

/-- KEY_CMD.INSTALL: the old key stays valid for the grace of 10 s. -/
def State.installKey (s : State) : State :=
  let n := 6 + s.board.fld Pg.lic F.licKeySelManager
  if s.mgmt.keyWords.length ≠ 8 then s.onBoard (fun b => b.setFld Pg.lic F.licKeyStatusCause 1)
  else if s.shelfBusy then s.onBoard (fun b => b.setFld Pg.lic F.licKeyStatusCause 2)
  else
    let key := s.mgmt.keyWords.flatMap (fun w => toLE 4 w.toNat)
    let old := s.key n
    let s1 : State := { s with store := { s.store with
      keys := putAt s.store.keys n ⟨key, false⟩, oldKeys := putAt s.store.oldKeys (n - 6) (if old.isEmpty then none else some old) } }
    ((s1.syncSlot n).clearKey).onBoard (fun b => (b.setFld Pg.lic F.licKeyStatusCause 0).raise Pg.lic F.licEventKeyInstalled)

/-- REVOKE (R473). -/
def execRevoke (link : Link) (slot : Nat) (s : State) : Host.Outcome State Fault Refusal :=
  done s (hostWrite link Pg.lic (F.licSlotCmdRevoke slot).off (fun s => s.revokeSlot (linkIdx link) slot) s)

/-- KEY_DATA (R474). -/
def execKeyData (link : Link) (value : Word) (s : State) : Host.Outcome State Fault Refusal :=
  done s (hostWrite link Pg.lic F.licKeyDataData.off (fun s => s.stageKey (linkIdx link) value) s)

/-- INSTALL (R474). -/
def execInstall (link : Link) (s : State) : Host.Outcome State Fault Refusal :=
  done s (hostWrite link Pg.lic F.licKeyCmdInstall.off State.installKey s)

/-- KEY_CLEAR (R474). -/
def execKeyClear (link : Link) (s : State) : Host.Outcome State Fault Refusal :=
  done s (hostWrite link Pg.lic F.licKeyCmdClear.off State.clearKey s)

/-- KEY_GRACE_EXPIRY (R474): the slot's previous key ends. -/
def execKeyGraceExpiry (slot : Nat) (s : State) : Host.Outcome State Fault Refusal :=
  done s (if slot = 6 ∨ slot = 7 then { s with store := { s.store with oldKeys := putAt s.store.oldKeys (slot - 6) none } } else s)

/-! ### Writes (R453, R464) -/

/-- What a write to a register of WO or W1S fields does: its actions in bit order. -/
def State.command (src page off v : Nat) (s : State) : State :=
  match pageKindOf page with
  | .opq0 => s.doorbell ((off - 0x100) / 4) (v % 65536)
  | .opq =>
    let n := ctxAt page off
    when (v.testBit 2) (fun s => s.disableCmd n) (when (v.testBit 1) (fun s => s.ctxReset n) (when (v.testBit 0) (fun s => s.enable n) s))
  | .mem => s.queueMem (v % 16)
  | .crdGlobal =>
    let p := (off - 0x100) / 16
    when (v.testBit 3) (fun s => s.retryPlan p) (when (v.testBit 2) (fun s => s.disarmPlan p)
      (when (v.testBit 1) (fun s => s.armNextPlan p) (when (v.testBit 0) (fun s => s.armPlan p) s)))
  | .nol => when (v.testBit 0) (fun s => s.reofferGroup (pageInfo page).2) s
  | .role => when (v.testBit 0) (fun s => s.swapReqTo (bitsOf v 27 16)) s
  | .bup => if off = F.bupCmdOp.off then s.bupCmd (v % 16) (bitsOf v 31 16) else s.cfgAppend (BitVec.ofNat 32 v)
  | .tel =>
    when (v.testBit 0) (fun s => s.onBoard (fun b => b.claim src)) (when (v.testBit 1) (fun s => s.onBoard (fun b => b.release src)) s)
  | .lic =>
    if off = F.licKeyDataData.off then s.stageKey src (BitVec.ofNat 32 v)
    else if off = F.licKeyCmdInstall.off then when (v.testBit 1) State.clearKey (when (v.testBit 0) State.installKey s)
    else when (v.testBit 0) (fun s => s.revokeSlot src ((off - 0x100) / 8)) s
  | _ => s

/-- A page that does not follow the common header (R457). -/
def isMsix (page : Nat) : Bool := page == 0x0F0 || page == 0x0F1

/-- A host's 32-bit BAR0 write. A doorbell of a link that does not own the module is counted on OPQ#0 as well (R136). -/
def write32 (l : Link) (page off v : Nat) (s : State) : State :=
  let src := linkIdx l
  let s0 := if page = Pg.opq0 ∧ 0x100 ≤ off ∧ off < 0x500 ∧ (s.board.owner == some src) = false ∧ s.answers = true then s.dbReject else s
  hostAccess (off == evtOff && !isMsix page) l page off
    (fun s => if isMsix page then s.storeMsix src page off v else s.storeReg (State.command src) src page off v) s0

/-- A BAR0 write (R453): 4 B, or 8 B as two writes with the lower offset first; another one is a width error. -/
def bar0Write (l : Link) (addr len v : Nat) (s : State) : State :=
  let a := addr % 2 ^ 22
  let page := a / 4096
  let off := a % 4096
  if len = 4 ∧ off % 4 = 0 then write32 l page off (v % 2 ^ 32) s
  else if len = 8 ∧ off % 8 = 0 then write32 l page (off + 4) (wordOf v 1) (write32 l page off (wordOf v 0) s)
  else if s.answers then s.onBoard (fun b => (b.inc Pg.mod Cn.modBar0Writes 1).accErr page off 5 (linkIdx l))
  else s

/-- REGISTER_WRITE (R464). -/
def execRegisterWrite (link : Link) (addr len value : Nat) (s : State) : Host.Outcome State Fault Refusal := done s (bar0Write link addr len value s)

/-- EVENT_W1C (R445, R479). -/
def execEventW1c (link : Link) (page : Nat) (value : Word) (s : State) : Host.Outcome State Fault Refusal :=
  done s (if page < 1024 then write32 link page evtOff value.toNat s else s)

/-- TREE_CFG_WRITE (R279): the slot's registers take effect at a boundary without an open invocation. -/
def execTreeCfgWrite (link : Link) (q off : Nat) (value : Word) (s : State) : Host.Outcome State Fault Refusal :=
  done s (if q < 4 ∧ 0x100 ≤ off ∧ off < 0x500 ∧ off % 4 = 0 then write32 link (Pg.ful q) off value.toNat s else s)

/-- TK_PERIOD_WRITE (R322). -/
def execTkPeriodWrite (link : Link) (value : Word) (s : State) : Host.Outcome State Fault Refusal :=
  done s (write32 link Pg.tk F.tkPeriodCycles.off value.toNat s)

/-- SPLIT_WRITE (R209). -/
def execSplitWrite (link : Link) (value : Word) (s : State) : Host.Outcome State Fault Refusal :=
  done s (write32 link Pg.fabSpine F.fabSpineSplitRead.off value.toNat s)

/-- LOOPBACK (R312). -/
def execLoopback (link : Link) (engine : Nat) (value : Word) (s : State) : Host.Outcome State Fault Refusal :=
  done s (if engine < 48 then write32 link (Pg.hb engine) F.hbControlLoopback.off value.toNat s else s)

/-- REOFFER (R303). -/
def execReoffer (link : Link) (group : Nat) (s : State) : Host.Outcome State Fault Refusal :=
  done s (if group < 12 then write32 link (Pg.nol group) F.nolControlReoffer.off 1 s else s)

/-- SWAP_REQ_CMD (R342). -/
def execSwapReqCmd (link : Link) (value : Word) (s : State) : Host.Outcome State Fault Refusal :=
  done s (write32 link Pg.role F.roleCmdSwapReq.off value.toNat s)

/-! ### The HOLDOFF of vector 0 (R478) -/

/-- EVT_HOLDOFF_EXPIRY (R478). -/
def execEvtHoldoffExpiry (s : State) : Host.Outcome State Fault Refusal :=
  done s (
    if !s.board.holding then s
    else
      let go := s.board.heldBack && s.board.anyPending
      let s1 := s.onBoard (fun b => { b with holding := false, heldBack := false })
      if go then s1.onBoard Board.signal0 else s1)

/-! ### The host links (R360, R428) -/

/-- TEL.STATUS of a link. -/
def Board.setLink (b : Board) (l up rate width : Nat) : Board :=
  if l = 0 then b.setFlds Pg.tel [(F.telStatusLinkAUp, up), (F.telStatusRateA, rate), (F.telStatusWidthA, width)]
  else b.setFlds Pg.tel [(F.telStatusLinkBUp, up), (F.telStatusRateB, rate), (F.telStatusWidthB, width)]

/-- PCIE_LINK_RESET (R360, R433): the link's side sends RESET_NOTIFY; its function, and its ownership, are reset. -/
def execPcieLinkReset (link : Link) (s : State) : Host.Outcome State Fault Refusal :=
  done s (
    if s.board.st = St.off then s
    else ((s.notify (linkSide (linkIdx link))).dropLink (linkIdx link)).onBoard (fun b => b.setLink (linkIdx link) 0 0 0))

/-- PCIE_LINK_UP (R428). -/
def execPcieLinkUp (link : Link) (rate width : Nat) (s : State) : Host.Outcome State Fault Refusal :=
  done s (
    if s.board.st = St.off then s
    else
      let s1 : State := { s with clk := { s.clk with stopped := s.clk.stopped.erase (linkSide (linkIdx link)) } }
      s1.onBoard (fun b => b.setLink (linkIdx link) 1 rate width))

/-- MGMT_PORT_LINK (R449). -/
def execMgmtPortLink (up : Bool) (s : State) : Host.Outcome State Fault Refusal :=
  done s (if s.board.st = St.off then s else s.onBoard (fun b => b.setFld Pg.tel F.telStatusMgmtUp (b2n up)))

end Sys2Proof.Machine
end

