-- ==== Sys2Proof/Machine/Mgmt.lean ====
section
/-! DEFINITION. BAR2, the management port and telemetry (15_management: R430 to R441). -/
namespace Sys2Proof.Machine

/-! ### Accesses in rack form (R174, R430) -/

/-- The rack index of a rack-form address names this module. -/
def State.isOwnRack (s : State) (a : Nat) : Bool := a / 2 ^ 52 % 4096 == 0xFFF || a / 2 ^ 52 % 4096 == s.rack

/-- The power domains of a range are on: of each core's window, or of the fabric. -/
def State.rangeOn (s : State) (a n : Nat) : Bool :=
  if a + n ≤ Lay.windowsEnd then (List.range ((a + n - 1) / Lay.window - a / Lay.window + 1)).all (fun i => s.board.on.contains (28 + a / Lay.window + i))
  else s.powered Pg.mem

/-- A read of `n` bytes that the host or a manager makes; none where R172 fails it. -/
def State.hostRead (s : State) (a n : Nat) : Option Bytes :=
  let u := a % 2 ^ 52
  if s.isOwnRack a && s.readable u n && s.rangeOn u n then some (s.rdBytes u n) else none

/-- A write, taken only into WRITABLE tier 0 pages. -/
def State.hostStore (s : State) (a : Nat) (bs : Bytes) : Option State :=
  let u := a % 2 ^ 52
  if s.isOwnRack a && s.writablePages u bs.length && s.rangeOn u bs.length then some (s.wrBytes u bs) else none

/-! ### BAR2 (R429 to R432) -/

/-- An aperture's rack-form address for a BAR2 offset; none for a disabled one. -/
def Board.aperture (b : Board) (off : Nat) : Option Nat :=
  let n := off / 2 ^ 32 % 16
  if b.flag Pg.tel (F.telApertureLoEnable n) then
    some (2 ^ 21 * b.fld Pg.tel (F.telApertureLoBase n) + 2 ^ 32 * b.fld Pg.tel (F.telApertureHiBase n) + off % 2 ^ 32)
  else none

/-- A BAR2 access that fails. -/
def State.bar2Fail (s : State) (l : Nat) (write : Bool) : State :=
  s.onBoard (fun b =>
    let b1 := b.inc Pg.tel Cn.telBar2Errors 1
    if write then b1 else b1.emit (.bar2 l true []))

/-- Waits for the answers of another module to `k` commands. -/
def State.awaitRemote (s : State) (l k : Nat) (write : Bool) : State :=
  ({ s with mgmt := { s.mgmt with remote := s.mgmt.remote ++ [(⟨l, write, k, [], false⟩ : RemoteWait)] } }).onBoard (fun b => b.inc Pg.tel Cn.telBar2Foreign 1)

/-- A foreign read as REMOTE_ACCESS commands of at most 1,024 B. -/
def State.remoteRead (s : State) (l a n : Nat) : State :=
  let k := ceilDiv n 1024
  (s.awaitRemote l k false).onBoard (fun b => (List.range k).foldl (fun b i =>
    b.emit (.remote (a / 2 ^ 52 % 4096) (a + 1024 * i) (min 1024 (n - 1024 * i)) 0 [])) b)

/-- A foreign write as REMOTE_ACCESS commands of at most 256 B. -/
def State.remoteWrite (s : State) (l a : Nat) (bs : Bytes) : State :=
  let ps := chunks 256 bs
  (s.awaitRemote l ps.length true).onBoard (fun b => (ps.zip (List.range ps.length)).foldl (fun b p =>
    b.emit (.remote (a / 2 ^ 52 % 4096) (a + 256 * p.2) p.1.length 1 p.1)) b)

/-- BAR2_READ (R430). -/
def execBar2Read (link : Link) (off len : Nat) (s : State) : Host.Outcome State Fault Refusal :=
  done s (
    let l := linkIdx link
    if !s.answers || len = 0 then s
    else
      let s1 := s.onBoard (fun b => b.inc Pg.tel Cn.telBar2Reads 1)
      match s.board.aperture off with
      | none => s1.bar2Fail l false
      | some a =>
        if !s1.isOwnRack a then s1.remoteRead l a len
        else
          match s1.hostRead a len with
          | some bs => s1.onBoard (fun b => b.emit (.bar2 l false bs))
          | none => s1.bar2Fail l false)

/-- BAR2_WRITE (R430). -/
def execBar2Write (link : Link) (off : Nat) (data : Bytes) (s : State) : Host.Outcome State Fault Refusal :=
  done s (
    let l := linkIdx link
    if !s.answers || data.isEmpty then s
    else
      let s1 := s.onBoard (fun b => b.inc Pg.tel Cn.telBar2Writes 1)
      match s.board.aperture off with
      | none => s1.bar2Fail l true
      | some a =>
        if !s.board.flag Pg.tel (F.telApertureLoWriteEn (off / 2 ^ 32 % 16)) then s1.bar2Fail l true
        else if !s1.isOwnRack a then s1.remoteWrite l a data
        else (s1.hostStore a data).getD (s1.bar2Fail l true))

/-- REMOTE_ACCESS_RESPONSE (R432): one answer to the link's oldest foreign access; the last one completes it. -/
def execRemoteAccessResponse (link : Link) (status : Nat) (data : Bytes) (s : State) : Host.Outcome State Fault Refusal :=
  done s (
    let l := linkIdx link
    match s.mgmt.remote.find? (fun w => w.link == l) with
    | none => s
    | some w =>
      let w1 : RemoteWait := { w with left := w.left - 1, data := w.data ++ data, bad := w.bad || decide (status ≠ 0) }
      let rest := s.mgmt.remote.erase w
      if w1.left ≠ 0 then
        { s with mgmt := { s.mgmt with remote := w1 :: rest } }
      else
        let s1 : State := { s with mgmt := { s.mgmt with remote := rest } }
        if w1.bad then s1.bar2Fail l w.write
        else if w.write then s1
        else s1.onBoard (fun b => b.emit (.bar2 l false w1.data)))

/-! ### Datagrams (R436, R437) -/

namespace Mg
def manager (d : Bytes) : Nat := leAt d 4 1
def op (d : Bytes) : Nat := leAt d 5 1
def seq (d : Bytes) : Nat := leAt d 8 8
def rack (d : Bytes) : Nat := leAt d 16 2 % 4096
/-- `n` bytes of ARGS from byte `i`. -/
def arg (d : Bytes) (i n : Nat) : Nat := leAt d (20 + i) n
end Mg

/-- The length that a datagram has with its data. -/
def mgmtLen (d : Bytes) : Nat := 96 + (if Mg.op d = 9 ∧ Mg.arg d 10 1 = 1 then Mg.arg d 8 2 else 0)

/-- LAST_SEQ. -/
def Board.lastSeq (b : Board) : Nat := b.rd64 Pg.tel F.telMgmtSeqLoSeq.off

/-- The MAC verifies under the key of the manager's slot, or under the one before it while its grace runs (R474). -/
def State.macOk (s : State) (d : Bytes) : Bool :=
  let m := Mg.manager d
  let mac := slice d 64 32
  let good := fun (k : Bytes) => !k.isEmpty && decide (hmac256 k (slice d 0 64) = mac)
  decide (m ≤ 1) && s.board.flag Pg.lic (F.licSlotEnabled (6 + m)) &&
    (good (s.key (6 + m)) || (match s.store.oldKeys.getD m none with
      | some k => good k
      | none => false))

/-- An answer to a manager. -/
def State.mgmtAnswer (s : State) (d : Bytes) (status : Nat) (data : Bytes) : State :=
  s.onBoard (fun b => b.emit (.mgmt (Mg.manager d) (Mg.op d) status (Mg.seq d) data))

/-- A datagram whose OP is among those of its row: `act` gives the next state, the STATUS and the data. -/
def mgmtDatagram (ops : Nat → Bool) (act : State → State × Nat × Bytes) (d : Bytes) (s : State) : State :=
  if !s.answers || !ops (Mg.op d) then s
  else if d.length < 96 ∨ d.length ≠ mgmtLen d ∨ leAt d 0 4 ≠ 0x4D474D54 ∨ Mg.rack d ≠ s.rack then s
  else if !s.macOk d then
    (s.onBoard (fun b => (b.inc Pg.tel Cn.telMgmtAuthFails 1).raise Pg.tel F.telEventMgmtAuthFail)).mgmtAnswer d 2 []
  else if Mg.seq d ≤ s.board.lastSeq then (s.onBoard (fun b => b.inc Pg.tel Cn.telMgmtStale 1)).mgmtAnswer d 1 []
  else
    let r := act (s.onBoard (fun b => b.wr64 Pg.tel F.telMgmtSeqLoSeq.off (Mg.seq d)))
    let s1 := if r.2.1 = 0 then r.1.onBoard (fun b => b.inc Pg.tel Cn.telMgmtApplied 1) else r.1
    s1.mgmtAnswer d r.2.1 r.2.2

/-- One OP. -/
def isOp (n : Nat) : Nat → Bool := fun k => k == n

/-- A command of BUP: STATUS 3 when it is refused, or discarded by a flush that runs (R381). -/
def State.mgmtBup (s : State) (op : Nat) : State × Nat × Bytes :=
  if s.board.flag Pg.pwr F.pwrGlobalStatusFlushing then (s, 3, [])
  else
    let s1 := s.bupCmd op 0
    (s1, if s1.board.fld Pg.bup F.bupCmdStatusCause = 0 then 0 else 3, [])

/-- CAP (R436). -/
def execCap (dgram : Bytes) (s : State) : Host.Outcome State Fault Refusal :=
  done s (mgmtDatagram (isOp 1) (fun s =>
    if s.board.flag Pg.pwr F.pwrGlobalStatusFlushing then (s, 3, []) else (s.setCap F.pwrGlobalCapMgmtW10 (Mg.arg dgram 0 2), 0, [])) dgram s)

/-- MGMT_POWER_ON (R436). -/
def execMgmtPowerOn (dgram : Bytes) (s : State) : Host.Outcome State Fault Refusal := done s (mgmtDatagram (isOp 2) (fun s => s.mgmtBup 1) dgram s)

/-- MGMT_POWER_OFF (R436). -/
def execMgmtPowerOff (dgram : Bytes) (s : State) : Host.Outcome State Fault Refusal := done s (mgmtDatagram (isOp 3) (fun s => s.mgmtBup 2) dgram s)

/-- MGMT_COMPUTE_RESET (R436). -/
def execMgmtComputeReset (dgram : Bytes) (s : State) : Host.Outcome State Fault Refusal := done s (mgmtDatagram (isOp 4) (fun s => s.mgmtBup 5) dgram s)

/-- SET_OWNER (R433, R436). A value above 2 names no owner and is refused. -/
def execSetOwner (dgram : Bytes) (s : State) : Host.Outcome State Fault Refusal :=
  done s (mgmtDatagram (isOp 5) (fun s =>
    if 2 < Mg.arg dgram 0 1 then (s, 3, []) else (s.onBoard (fun b => b.setOwner (Mg.arg dgram 0 1)), 0, [])) dgram s)

/-- READ_REG (R436, R454): the registers at the moment the command is handled. -/
def execReadReg (dgram : Bytes) (s : State) : Host.Outcome State Fault Refusal :=
  done s (mgmtDatagram (isOp 6) (fun s =>
    let page := Mg.arg dgram 0 2
    let off := Mg.arg dgram 2 2
    let n := Mg.arg dgram 4 1
    if n = 0 ∨ 64 < n ∨ off % 4 ≠ 0 ∨ 4096 < off + 4 * n ∨ 1024 ≤ page then (s, 3, [])
    else
      let r := (List.range n).foldl (fun (acc : State × Bytes) i =>
        (acc.1.afterRead page (off + 4 * i), acc.2 ++ toLE 4 (acc.1.regValue page (off + 4 * i)))) (s, [])
      (r.1, 0, r.2)) dgram s)

/-- The states of READ_MEM and REMOTE_ACCESS. -/
def State.memStates (s : State) : Bool := decide (s.board.st = St.service) || decide (s.board.st = St.held)

/-- READ_MEM (R436). -/
def execReadMem (dgram : Bytes) (s : State) : Host.Outcome State Fault Refusal :=
  done s (mgmtDatagram (isOp 7) (fun s =>
    let n := Mg.arg dgram 8 2
    if !s.memStates || decide (n < 64) || decide (1024 < n) || n % 64 ≠ 0 then (s, 3, [])
    else
      match s.hostRead (Mg.arg dgram 0 8) n with
      | some bs => (s, 0, bs)
      | none => (s, 3, [])) dgram s)

/-- SUBSCRIBE (R436, R440). -/
def execSubscribe (dgram : Bytes) (s : State) : Host.Outcome State Fault Refusal :=
  done s (mgmtDatagram (isOp 8) (fun s =>
    let m := Mg.manager dgram
    let l := s.mgmt.subscribed.filter (fun x => x ≠ m)
    ({ s with mgmt := { s.mgmt with subscribed := if Mg.arg dgram 0 1 = 1 then l ++ [m] else l } }, 0, [])) dgram s)

/-- REMOTE_ACCESS (R432): as an access through BAR2, while TEL.CONTROL.RACK_ACCESS_EN is 1. -/
def execRemoteAccess (dgram : Bytes) (s : State) : Host.Outcome State Fault Refusal :=
  done s (mgmtDatagram (isOp 9) (fun s =>
    let a := Mg.arg dgram 0 8
    let n := Mg.arg dgram 8 2
    let w := decide (Mg.arg dgram 10 1 = 1)
    let fail := fun (s : State) => (s.onBoard (fun b => b.inc Pg.tel Cn.telBar2Errors 1), 3, ([] : Bytes))
    if !s.memStates then (s, 3, [])
    else if !s.board.flag Pg.tel F.telControlRackAccessEn || n = 0 || decide ((if w then 256 else 1024) < n) then fail s
    else if w then
      let s1 := s.onBoard (fun b => b.inc Pg.tel Cn.telBar2Writes 1)
      match s1.hostStore a (slice dgram 96 n) with
      | some t => (t, 0, [])
      | none => fail s1
    else
      let s1 := s.onBoard (fun b => b.inc Pg.tel Cn.telBar2Reads 1)
      match s1.hostRead a n with
      | some bs => (s1, 0, bs)
      | none => fail s1) dgram s)

/-- UNKNOWN_MGMT_OP (R437). -/
def execUnknownMgmtOp (dgram : Bytes) (s : State) : Host.Outcome State Fault Refusal :=
  done s (mgmtDatagram (fun k => k == 0 || decide (10 ≤ k)) (fun s => (s, 4, [])) dgram s)

/-! ### Telemetry (R439, R440) -/

/-- How far a counter has moved since the previous frame. -/
def State.delta (s : State) (page off : Nat) : Nat :=
  ((Tbl.get zero64 s.board.snap (cntKey page off)).toNat + 2 ^ 64 - (Tbl.get zero64 s.mgmt.prev (cntKey page off)).toNat) % 2 ^ 64

/-- The lowest slack of each partition; one that ended no task since the previous frame has an open value. -/
def State.slackFields (s : State) : List (Nat × Nat × Nat) × State :=
  (List.range 16).foldl (fun (acc : List (Nat × Nat × Nat) × State) p =>
    match Tbl.get (fun _ => (none : Option Int)) acc.2.mgmt.lowSlack p with
    | some v => (acc.1 ++ [(160 + 4 * p, 4, codeOf 32 v)], acc.2)
    | none =>
      let (k, s1) := acc.2.freeNat
      (acc.1 ++ [(160 + 4 * p, 4, k)], s1)) ([], s)

/-- The fields of a frame at the current grid point. A DATA flit carries 240 B of payload (R290). -/
def State.frameFields (s : State) : List (Nat × Nat × Nat) :=
  let b := s.board
  let parts := fun (g : Nat → Fld) => maskOfList ((List.range 16).filter (fun p => b.flag Pg.opq0 (g p)))
  let sum := fun (ps : List Nat) (o : Nat) => (ps.map (fun p => s.delta p o)).sum
  [(0, 8, s.gridPoint s.crown.tick), (8, 8, s.crown.tick), (16, 1, b.st), (17, 1, s.store.variant), (18, 2, s.rack), (20, 4, s.mgmt.frameSeq + 1),
   (24, 2, b.fld Pg.pwr F.pwrGlobalInputPowerW10), (26, 2, b.fld Pg.pwr F.pwrGlobalCapEffectiveW10), (28, 1, b.fld Pg.pwr F.pwrGlobalOperatingDuty),
   (29, 1, b.fld Pg.clk F.clkMclkStateCurrent), (32, 2, b.fld Pg.thm F.thmCoolantInlet), (34, 2, b.fld Pg.thm F.thmCoolantOutlet),
   (36, 2, b.fld Pg.thm F.thmFlowLpm)] ++
  (List.range 24).map (fun t => (40 + t, 1, b.fld Pg.thm (F.thmTileMaxC t))) ++
  (List.range 8).map (fun c => (64 + 4 * c, 4, s.delta Pg.mem (Cn.memStall c))) ++
  [(96, 4, s.delta Pg.tk Cn.tkHeldBoundaries), (100, 12, b.slowMask), (112, 8, 240 * sum ((List.range 48).map Pg.hb) Cn.hbRxFlits),
   (120, 8, 240 * sum ((List.range 48).map Pg.hb) Cn.hbTxFlits), (128, 8, sum ((List.range 96).map Pg.drm) Cn.drmReadBytes),
   (136, 4, s.delta Pg.trc Cn.trcAFolded), (140, 4, s.delta Pg.trc Cn.trcBRecords), (144, 4, s.delta Pg.trc Cn.trcCRecords),
   (148, 2, parts F.opq0PartCtrlRunValid), (150, 2, parts F.opq0PartCtrlStalled)]

/-- A frame that is not written. -/
def State.dropFrame (s : State) : State := s.onBoard (fun b => (b.inc Pg.tel Cn.telFramesDropped 1).raise Pg.tel F.telEventFrameDropped)

/-- The frame goes into the telemetry ring, or is dropped. -/
def State.writeFrame (s : State) (frame : Bytes) : State :=
  let b := s.board
  let base := 512 * b.fld Pg.tel F.telRingBaseLoAddr + 2 ^ 32 * b.fld Pg.tel F.telRingBaseHiAddr
  let size := 2 ^ b.fld Pg.tel F.telFrameCfgRingLog2
  let wi := b.fld Pg.tel F.telRingIndexWi
  if !b.flag Pg.tel F.telControlFrameEn || decide (idxSub wi (b.fld Pg.tel F.telRingIndexRi) = size) || !s.writablePages base (512 * size) then s.dropFrame
  else
    (s.wrBytes (base + 512 * (wi % size)) frame).onBoard (fun b =>
      ((b.setFld Pg.tel F.telRingIndexWi (wi + 1)).inc Pg.tel Cn.telFramesWritten 1).signal 18)

/-- TELEMETRY_FRAME (R439, R440): at every DECIMATE-th grid point that was not held. A frame to a subscriber is a datagram with OP 8 whose
SEQ is open. -/
def execTelemetryFrame (s : State) : Host.Outcome State Fault Refusal :=
  done s (
    if !s.gridRuns || decide (s.mgmt.sinceFrame < s.board.fld Pg.tel F.telFrameCfgDecimate) then s
    else
      let (slack, s1) := s.slackFields
      let frame := bodyOf 512 (s1.frameFields ++ slack)
      let (q, s2) := s1.freeNat
      let s3 : State := { s2 with mgmt := { s2.mgmt with frameSeq := s2.mgmt.frameSeq + 1, prev := s2.board.snap, lowSlack := [], sinceFrame := 0 } }
      (s3.writeFrame frame).onBoard (fun b => s3.mgmt.subscribed.foldl (fun b m => b.emit (.mgmt m 8 0 q frame)) b))

end Sys2Proof.Machine
end

