-- ==== Sys2Proof/Machine/OpsMatrix.lean ====
section
/-! DEFINITION. The matrix operators: GEMM, grouped GEMM and ATTN (05_sniash: R142, R143, R145; 04_sparsity: R108). -/
namespace Sys2Proof.Machine

/-- The first slot of a list whose requirement fails. -/
def firstBad (l : List (Nat × Bool)) : Option Nat := (l.find? (fun p => !p.2)).map Prod.fst

/-- A slot of `r` rows, `c` columns and `b` batches. -/
def Slot.is (t : Slot) (b r c : Nat) : Bool := decide (t.batch = b) && decide (t.rows = r) && decide (t.cols = c)

/-- An operand tensor that is not used. -/
def noTen : Ten := ⟨.fp32, 0, 0, 0, []⟩

/-- Block sums of a GEMM that an infinity facing a pruned weight makes NaN (R108), given each A row's rows of B. -/
def prunedOf (a b : Ten) (batchOf : Nat → Nat → Nat) : Nat :=
  ((List.range a.batch).flatMap (fun i => (List.range a.rows).flatMap (fun m =>
    (b.batchRows (batchOf i m)).map (fun w => if w.stored.isEmpty then 0 else prunedBlocks a.fmt (a.row i m) w)))).foldl (· + ·) 0

/-! ### GEMM (R142) -/

/-- T0 A, T1 B, T2 out, optional T3 bias. -/
def gemmDef : OpDef :=
  { opcode := 0x10, subops := [0], lowest := 1, arity := fun _ => [3, 4],
    fmts := fun _ i => if i = 3 then fF32 else fNum,
    outs := fun _ => [2],
    pair := fun d => if pairOk (d.slot 0).fmt (d.slot 1).fmt then none else some 1,
    shape := fun d =>
      let a := d.slot 0
      let b := d.slot 1
      firstBad [(1, decide (a.cols = b.cols) && (decide (b.batch = 1) || decide (b.batch = a.batch))),
        (2, (d.slot 2).is a.batch a.rows b.rows), (3, decide (d.ntens < 4) || (d.slot 3).is 1 1 b.rows)],
    param := fun _ _ => false, alone := false,
    run := fun s n d =>
      let a := s.ten n d 0
      let b := s.ten n d 1
      let o := gemmOut d.cv (redCfg d.level d.granule a.fmt) d.alpha d.epi a b (d.slot 2).f
        (if d.ntens = 4 then some (s.ten n d 3) else none) (if d.accum then some (s.ten n d 2) else none)
      s.result n d 2 o (prunedOf a b (fun i _ => if b.batch = 1 then 0 else i)) }

/-! ### Grouped GEMM (R143) -/

/-- T0 A, T1 B of E batches, T2 out, T3 offsets. -/
def groupedDef : OpDef :=
  { gemmDef with
    subops := [1], lowest := 2, arity := fun _ => [4],
    fmts := fun _ i => if i = 3 then fI32 else fNum,
    shape := fun d =>
      let a := d.slot 0
      let b := d.slot 1
      firstBad [(0, decide (a.batch = 1)), (1, decide (a.cols = b.cols)), (2, (d.slot 2).is 1 a.rows b.rows),
        (3, (d.slot 3).is 1 1 (b.batch + 1))],
    run := fun s n d =>
      let a := s.ten n d 0
      let b := s.ten n d 1
      let offs := (s.ten n d 3).ints.getD 0 []
      if !offsetsOk offs a.rows then { RunOut.nil with cause := Cause.shape, slot := 3, keep := true }
      else
        let o := groupedOut d.cv (redCfg d.level d.granule a.fmt) d.alpha d.epi a b (d.slot 2).f offs
          (if d.accum then some (s.ten n d 2) else none)
        s.result n d 2 o (prunedOf a b (fun _ m => expertOf offs m)) }

/-! ### ATTN (R145) -/

/-- T0 Q, T1 K, T2 Vᵀ, T3 out, optional T4 key lengths. -/
def attnDef : OpDef :=
  { opcode := 0x11, subops := [0, 1], lowest := 2, arity := fun _ => [4, 5],
    fmts := fun _ i => if i = 4 then fI32 else fNum,
    outs := fun _ => [3],
    pair := fun d => if pairOk (d.slot 0).fmt (d.slot 1).fmt then none else some 1,
    shape := fun d =>
      let q := d.slot 0
      let k := d.slot 1
      let v := d.slot 2
      firstBad [(1, decide (k.cols = q.cols) && decide (q.batch % k.batch = 0)),
        (2, decide (v.batch = k.batch) && decide (v.cols = k.rows)), (3, (d.slot 3).is q.batch q.rows v.rows),
        (4, decide (d.ntens < 5) || (d.slot 4).is 1 q.batch 1)],
    param := fun _ _ => false, alone := false,
    run := fun s n d =>
      let o := attnOut d.cv d.level d.granule d.alpha (d.subop == 1) (s.ten n d 0) (s.ten n d 1) (s.ten n d 2) (d.slot 3).f
        (if d.ntens = 5 then some (s.ten n d 4) else none)
      s.result n d 3 o 0 }

/-- GEMM (R142). -/
def execGemm (ctx : Nat) (s : State) : Host.Outcome State Fault Refusal := done s (s.startOp gemmDef ctx)

/-- GEMM_GROUPED (R143). -/
def execGemmGrouped (ctx : Nat) (s : State) : Host.Outcome State Fault Refusal := done s (s.startOp groupedDef ctx)

/-- ATTN (R145). -/
def execAttn (ctx : Nat) (s : State) : Host.Outcome State Fault Refusal := done s (s.startOp attnDef ctx)

end Sys2Proof.Machine
end

