-- ==== Sys2Proof/Machine/OpsVector.lean ====
section
/-! DEFINITION. The vector operators: ELEM, NORM, SOFTMAX and REDUCE (05_sniash: R146 to R149). -/
namespace Sys2Proof.Machine

/-- A slot of the same shape as another. -/
def Slot.like (t a : Slot) : Bool := t.is a.batch a.rows a.cols

/-- ELEM (R146): T0 a, T1 b when binary, then out. -/
def elemDef : OpDef :=
  let last := fun (d : Desc) => if elemBinary d.subop then 2 else 1
  { opcode := 0x20, subops := elemSubops, lowest := 1, arity := fun d => [last d + 1],
    fmts := fun _ _ => fNum, outs := fun d => [last d], pair := fun _ => none,
    shape := fun d =>
      let a := d.slot 0
      let b := d.slot 1
      firstBad [(1, !elemBinary d.subop || (decide (b.cols = a.cols) && (decide (b.rows = a.rows) || decide (b.rows = 1)) &&
          (decide (b.batch = a.batch) || decide (b.batch = 1)))),
        (last d, (d.slot (last d)).like a)],
    param := fun _ _ => false, alone := false,
    run := fun s n d =>
      s.result n d (last d) (elemOut d.cv d.subop d.alpha (s.ten n d 0)
        (if elemBinary d.subop then some (s.ten n d 1) else none) (d.slot (last d)).f (last d)) 0 }

/-- NORM (R147): T0 x, T1 out, T2 γ, optional T3 β; PARAM0 is ε. -/
def normDef : OpDef :=
  { opcode := 0x21, subops := [0, 1], lowest := 1, arity := fun _ => [3, 4],
    fmts := fun _ _ => fNum, outs := fun _ => [1], pair := fun _ => none,
    shape := fun d =>
      let x := d.slot 0
      firstBad [(1, (d.slot 1).like x), (2, (d.slot 2).is 1 1 x.cols), (3, decide (d.ntens < 4) || (d.slot 3).is 1 1 x.cols)],
    param := fun _ _ => false, alone := false,
    run := fun s n d =>
      s.result n d 1 (normOut d.cv d.subop (BitVec.ofNat 32 (d.param 0)) (s.ten n d 0) (s.ten n d 2)
        (if d.ntens = 4 then some (s.ten n d 3) else none) (d.slot 1).f) 0 }

/-- SOFTMAX (R148): T0 x, T1 out. -/
def softmaxDef : OpDef :=
  { opcode := 0x22, subops := [0], lowest := 1, arity := fun _ => [2],
    fmts := fun _ _ => fNum, outs := fun _ => [1], pair := fun _ => none,
    shape := fun d => firstBad [(1, (d.slot 1).like (d.slot 0))],
    param := fun _ _ => false, alone := false,
    run := fun s n d => s.result n d 1 (softmaxOut d.cv d.alpha (s.ten n d 0) (d.slot 1).f) 0 }

/-- REDUCE (R149): T0 x, T1 out. -/
def reduceDef : OpDef :=
  { opcode := 0x23, subops := [0, 1, 2, 3, 16, 17, 18, 19], lowest := 1, arity := fun _ => [2],
    fmts := fun _ _ => fNum, outs := fun _ => [1], pair := fun _ => none,
    shape := fun d =>
      let x := d.slot 0
      firstBad [(1, if d.subop.testBit 4 then (d.slot 1).is x.batch 1 x.cols else (d.slot 1).is x.batch x.rows 1)],
    param := fun _ _ => false, alone := false,
    run := fun s n d => s.result n d 1 (reduceOut d.cv d.subop (s.ten n d 0) (d.slot 1).f) 0 }

/-- ELEM (R146). -/
def execElem (ctx : Nat) (s : State) : Host.Outcome State Fault Refusal := done s (s.startOp elemDef ctx)

/-- NORM (R147). -/
def execNorm (ctx : Nat) (s : State) : Host.Outcome State Fault Refusal := done s (s.startOp normDef ctx)

/-- SOFTMAX (R148). -/
def execSoftmax (ctx : Nat) (s : State) : Host.Outcome State Fault Refusal := done s (s.startOp softmaxDef ctx)

/-- REDUCE (R149). -/
def execReduce (ctx : Nat) (s : State) : Host.Outcome State Fault Refusal := done s (s.startOp reduceDef ctx)

end Sys2Proof.Machine
end

