-- ==== Sys2Proof/Machine/OpsMove.lean ====
section
/-! DEFINITION. The operators that move, route, re-lay and sample: GATHER, SCATTER_ADD, MOE_DISPATCH, MOE_COMBINE, QUANT,
DEQUANT, RELAY, TRANSPOSE and SAMPLE (05_sniash: R150 to R154). Tensors that the catalogue gives as rows × columns have BATCH 1
(DEDUCED, notes/assumptions/14.md). -/
namespace Sys2Proof.Machine

/-- Formats that may differ only when both are value formats (R493: bit-exact copies). -/
def copyOk (a b : Nat) : Bool := a == b || (fNum.contains a && fNum.contains b)

/-- GATHER (R150): T0 table, T1 indices, T2 out. -/
def gatherDef : OpDef :=
  { opcode := 0x30, subops := [0], lowest := 1, arity := fun _ => [3],
    fmts := fun _ i => if i = 1 then fI32 else fAny,
    outs := fun _ => [2],
    pair := fun d => if copyOk (d.slot 0).fmt (d.slot 2).fmt then none else some 2,
    shape := fun d =>
      let t := d.slot 0
      let x := d.slot 1
      firstBad [(0, decide (t.batch = 1)), (1, x.is 1 x.rows 1), (2, (d.slot 2).is 1 x.rows t.cols)],
    param := fun _ _ => false, alone := false,
    run := fun s n d => s.result n d 2 (gatherOut d.cv (s.ten n d 0) (s.ten n d 1) (d.slot 2).f) 0 }

/-- SCATTER_ADD (R150): T0 src, T1 indices, T2 dest. -/
def scatterDef : OpDef :=
  { opcode := 0x31, subops := [0], lowest := 1, arity := fun _ => [3],
    fmts := fun _ i => if i = 1 then fI32 else fF32,
    outs := fun _ => [2], pair := fun _ => none,
    shape := fun d =>
      let t := d.slot 0
      firstBad [(0, decide (t.batch = 1)), (1, (d.slot 1).is 1 t.rows 1),
        (2, decide ((d.slot 2).batch = 1) && decide ((d.slot 2).cols = t.cols))],
    param := fun _ _ => false, alone := false,
    run := fun s n d => s.result n d 2 (scatterOut (s.ten n d 0) (s.ten n d 1) (s.ten n d 2)) 0 }

/-- MOE_DISPATCH (R151): T0 logits, T1 slot map, T2 offsets, T3 gates, T4 order; PARAM0 is the capacity, SUBOP is k. -/
def moeDispatchDef : OpDef :=
  { opcode := 0x40, subops := [1, 2, 3, 4, 5, 6, 7, 8], lowest := 2, arity := fun _ => [5],
    fmts := fun _ i => if i = 0 ∨ i = 3 then fF32 else fI32,
    outs := fun _ => [1, 2, 3, 4], pair := fun _ => none,
    shape := fun d =>
      let x := d.slot 0
      let k := d.subop
      firstBad [(0, decide (x.batch = 1) && decide (k ≤ x.cols)), (1, (d.slot 1).is 1 x.rows k),
        (2, (d.slot 2).is 1 1 (x.cols + 1)), (3, (d.slot 3).is 1 x.rows k), (4, (d.slot 4).is 1 1 (x.rows * k))],
    param := fun _ _ => false, alone := false,
    run := fun s n d => s.result n d 1 (moeDispatchOut d.subop (d.param 0) d.alpha (s.ten n d 0)) 0 }

/-- MOE_COMBINE (R152): T0 expert rows, T1 slot map, T2 gates, T3 out. -/
def moeCombineDef : OpDef :=
  { opcode := 0x41, subops := [0], lowest := 2, arity := fun _ => [4],
    fmts := fun _ i => if i = 1 then fI32 else fNum,
    outs := fun _ => [3], pair := fun _ => none,
    shape := fun d =>
      let x := d.slot 0
      let m := d.slot 1
      firstBad [(0, decide (x.batch = 1)), (1, decide (m.batch = 1)), (2, (d.slot 2).like m), (3, (d.slot 3).is 1 m.rows x.cols)],
    param := fun _ _ => false, alone := false,
    run := fun s n d =>
      let x := s.ten n d 0
      let m := s.ten n d 1
      let r := s.result n d 3 (moeCombineOut d.cv (fun i => Config.freeWord (s.freeCtr + i)) x m (s.ten n d 2) (d.slot 3).f) 0
      { r with drawn := m.rows * m.cols * x.cols } }

/-- QUANT (R153): FP32, BF16 or FP16 to an MX format. -/
def quantDef : OpDef :=
  { opcode := 0x50, subops := [0], lowest := 1, arity := fun _ => [2],
    fmts := fun _ i => if i = 0 then fFlt else fMx,
    outs := fun _ => [1], pair := fun _ => none,
    shape := fun d => firstBad [(1, (d.slot 1).like (d.slot 0))],
    param := fun _ _ => false, alone := false,
    run := fun s n d => s.result n d 1 (requantOut d.cv (s.ten n d 0) (d.slot 1).f) 0 }

/-- DEQUANT (R153): an MX format to FP32, BF16 or FP16. -/
def dequantDef : OpDef :=
  { quantDef with opcode := 0x51, fmts := fun _ i => if i = 0 then fMx else fFlt }

/-- RELAY (R153): arrangement or sparse kind rewritten. -/
def relayDef : OpDef :=
  { opcode := 0x52, subops := [0], lowest := 1, arity := fun _ => [2],
    fmts := fun _ _ => fAny, outs := fun _ => [1],
    pair := fun d => if (d.slot 0).fmt == (d.slot 1).fmt then none else some 1,
    shape := fun d => firstBad [(1, (d.slot 1).like (d.slot 0))],
    param := fun _ _ => false, alone := false,
    run := fun s n d => s.result n d 1 (relayOut (s.ten n d 0)) 0 }

/-- TRANSPOSE (R153): RELAY SUBOP 1 on a dense tensor that is not MX. -/
def transposeDef : OpDef :=
  { relayDef with
    subops := [1], fmts := fun _ _ => [0, 1, 2, 10, 11],
    shape := fun d =>
      let x := d.slot 0
      firstBad [(1, (d.slot 1).is x.batch x.cols x.rows)],
    run := fun s n d => s.result n d 1 (transposeOut (s.ten n d 0)) 0 }

/-- SAMPLE (R154): T0 logits, T1 tokens; PARAM0 k, PARAM1 p, PARAM2 temperature. -/
def sampleDef : OpDef :=
  { opcode := 0x60, subops := [0, 1, 2, 3], lowest := 2, arity := fun _ => [2],
    fmts := fun _ i => if i = 0 then fNum else fI32,
    outs := fun _ => [1], pair := fun _ => none,
    shape := fun d =>
      let x := d.slot 0
      firstBad [(1, (d.slot 1).is x.batch x.rows 1)],
    param := fun _ _ => false, alone := false,
    run := fun s n d =>
      let x := s.ten n d 0
      let r := s.result n d 1 (sampleOut d.cv d.subop (d.param 0) (BitVec.ofNat 32 (d.param 1)) (BitVec.ofNat 32 (d.param 2))
        (fun i => Config.freeWord (s.freeCtr + i)) x) 0
      { r with drawn := x.batch * x.rows } }

/-- GATHER (R150). -/
def execGather (ctx : Nat) (s : State) : Host.Outcome State Fault Refusal := done s (s.startOp gatherDef ctx)

/-- SCATTER_ADD (R150). -/
def execScatterAdd (ctx : Nat) (s : State) : Host.Outcome State Fault Refusal := done s (s.startOp scatterDef ctx)

/-- MOE_DISPATCH (R151). -/
def execMoeDispatch (ctx : Nat) (s : State) : Host.Outcome State Fault Refusal := done s (s.startOp moeDispatchDef ctx)

/-- MOE_COMBINE (R152). -/
def execMoeCombine (ctx : Nat) (s : State) : Host.Outcome State Fault Refusal := done s (s.startOp moeCombineDef ctx)

/-- QUANT (R153). -/
def execQuant (ctx : Nat) (s : State) : Host.Outcome State Fault Refusal := done s (s.startOp quantDef ctx)

/-- DEQUANT (R153). -/
def execDequant (ctx : Nat) (s : State) : Host.Outcome State Fault Refusal := done s (s.startOp dequantDef ctx)

/-- RELAY (R153). -/
def execRelay (ctx : Nat) (s : State) : Host.Outcome State Fault Refusal := done s (s.startOp relayDef ctx)

/-- TRANSPOSE (R153). -/
def execTranspose (ctx : Nat) (s : State) : Host.Outcome State Fault Refusal := done s (s.startOp transposeDef ctx)

/-- SAMPLE (R154). -/
def execSample (ctx : Nat) (s : State) : Host.Outcome State Fault Refusal := done s (s.startOp sampleDef ctx)

end Sys2Proof.Machine
end

