-- ==== Sys2Proof/Machine/Tick.lean ====
section
/-! DEFINITION. The tick boundary and its close point (11_tick_and_roles: R322 to R327, R333, R334, R339; 05_sniash: R157, R160;
03_large_cores: R86, R87; 06_memory_tiers: R177, R192, R193; 13_power: R371, R373; 15_management: R441). -/
namespace Sys2Proof.Machine

/-! ### The close point (R324) -/

/-- What a partition's next task waits for, as codes of R192: a tier 1 read ahead, or one of a page that is being refetched (0), a tier 3
read ahead (1), its layer (1, 2, 3, 5), room in a fulling engine (6). -/
def State.waitCauses (s : State) (p : Nat) : List Nat :=
  if (s.runningCtx p).isNone then []
  else
    let rs := (s.partCores p).flatMap (fun c => (s.core c).reads.filter SeRead.forNext)
    let again := fun (r : SeRead) => s.tier.fly.any (fun f => f.refetch && f.page == pageOf r.addr)
    (if rs.any (fun r => r.tier == 1 || again r) then [0] else []) ++ (if rs.any (fun r => r.tier == 3) then [1] else []) ++
      (if s.feedWaits p then s.feedCauses p else []) ++ (if (s.backlogTrees p).isEmpty then [] else [6])

/-- Each core's task is complete, or not; each doorbell has arrived, or not; each barrier has completed, or not; each partition's inputs
are there, or not. -/
def State.closeAt (s : State) (g : Nat) : State :=
  let s1 := s.onBoard (fun b => { b with gtc := max b.gtc (g - 192) })
  let s2 := (List.range 96).foldl (fun s c =>
    let x := s.core c
    s.setCore c { x with sampled := x.task.isNone || x.doneAt.isSome }) s1
  let s3 := (List.range 256).foldl (fun s n => if s.cstate n = Cs.free then s else s.updCtx n (fun c => { c with closePi := s.pi n })) s2
  let s4 := (List.range 16).foldl State.feedSample s3
  let s5 := (List.range 16).foldl (fun s p => s.setPart p { s.part p with causes := s.waitCauses p }) s4
  s5.onCrown (fun c => { c with closed := true })

/-- CLOSE_POINT (R324): 192 cycles before the coming grid point. -/
def execClosePoint (s : State) : Host.Outcome State Fault Refusal :=
  done s (if s.gridRuns && s.alive then s.closeAt (s.gridPoint (s.crown.tick + 1)) else s)

/-! ### A held boundary (R86, R192, R193, R325) -/

/-- A task is late for its boundary: OVERRUN, and its slack when it completed after the close point. -/
def State.overrun (s : State) (g c : Nat) : State :=
  let x := s.core c
  let s1 := (s.setCore c { x with overran := some g }).onBoard (fun b =>
    (b.raise (Pg.core c) F.coreEventOverrun).inc Pg.tk Cn.tkOverruns 1)
  match x.task, x.doneAt with
  | some t, some d => (s1.latchSlack c ((g : Int) - (d : Int))).onBoard (fun b => b.trace (c / 4) (c % 4) 8 t.1 (toLE 8 0))
  | _, _ => s1

/-- STALL_LAST and its GTC: the latest held boundary. -/
def State.stallLast (s : State) (cause p g : Nat) : State :=
  s.onBoard (fun b => ((b.setFlds Pg.mem [(F.memStallLastCause, cause), (F.memStallLastPartition, p)]).setCnt Pg.mem Cn.memStallLastGtc g).raise
    Pg.mem F.memEventStall)

/-- Partitions with a request at a hot slice or link count slice_hot when they are held. -/
def State.countHot (s : State) (ps : List Nat) : State :=
  s.onBoard (fun b => b.inc Pg.mem (Cn.memStall 4) (s.fab.hotParts.filter ps.contains).length)

/-- The boundary is held by the cores listed, or for the grid's sake by none; then which partition STALL_LAST names is open. A boundary is
held once: the grid points until its release count nothing more. -/
def State.holdTick (s : State) (tardy : List Nat) (g : Nat) : State :=
  if s.board.flag Pg.tk F.tkStatusHeld then s
  else
    let (p, s1) := match (List.range 16).find? (fun p => tardy.any (s.partCores p).contains) with
      | some p => (p, s)
      | none => let (k, s1) := s.freeNat; (k % 16, s1)
    let s2 := s1.onBoard (fun b =>
      (((b.setFld Pg.tk F.tkStatusHeld 1).inc Pg.tk Cn.tkHeldBoundaries 1).raise Pg.tk F.tkEventOverrun).inc Pg.mem (Cn.memStall 7) 1)
    let s3 := ((s2.stallLast 7 p g).countHot (List.range 16))
    tardy.foldl (fun s c => s.overrun g c) { s3 with fab := { s3.fab with hotParts := [] } }

/-! ### Slack (R86, R87, R339, R439) -/

/-- A core's task ends at a boundary that is not held. A core that had none neither counts against it nor breaks a run (DEDUCED,
notes/assumptions/38.md). -/
def State.endTick (g : Nat) (s : State) (c : Nat) : State :=
  let x := s.core c
  match x.task, x.doneAt with
  | some t, some d =>
    let slack : Int := match x.overran with
      | some t0 => (t0 : Int) - (d : Int)
      | none => (g : Int) - (d : Int)
    let s1 := if x.overran.isSome then s else s.latchSlack c slack
    let y := s1.core c
    let slow : Bool := x.overran.isSome || decide (slack < (s1.board.fld Pg.tk F.tkSlowCfgThreshold : Int))
    let s2 := s1.setCore c { y with task := none, doneAt := none, overran := none, slowRun := if slow then y.slowRun + 1 else 0,
                                    fastRun := if slow then 0 else y.fastRun + 1 }
    let p := s2.partOf t.1
    let low := match Tbl.get (fun _ => (none : Option Int)) s2.mgmt.lowSlack p with
      | some v => min v slack
      | none => slack
    let (k, s3) := s2.freeNat
    ({ s3 with mgmt := { s3.mgmt with lowSlack := Tbl.set (fun _ => (none : Option Int)) s3.mgmt.lowSlack p (some low) } }).onBoard (fun b =>
      b.setFld (Pg.core c) F.coreStrandStatePeak (k % 16385))
  | _, _ => s

/-- PEAK of the stream engines for the tick that ends (R93). -/
def State.latchPeak (s : State) (c : Nat) : State :=
  let x := s.core c
  let used := s.board.fld (Pg.core c) F.coreSeStateInUse
  (s.setCore c { x with sePeak := used }).onBoard (fun b => b.setFld (Pg.core c) F.coreSeStatePeak x.sePeak)

/-! ### Measurement and the operating point (R353, R371, R373, R382, R385) -/

/-- The sensors' values; while the input is low, the undervoltage cap is 600 A times the voltage measured (R372). -/
def State.measure (m : Meas) (s : State) : State :=
  let s1 := s.onBoard (fun b =>
    let b1 := ((b.setFld Pg.pwr F.pwrGlobalInputPowerW10 m.power).setVin m.vin).setFlds Pg.thm
      [(F.thmCoolantInlet, m.inlet), (F.thmCoolantOutlet, m.outlet), (F.thmFlowLpm, m.flow)]
    let b2 := b1.setFlds Pg.thm [(F.thmSpineNorthC, m.spineC.getD 0 0), (F.thmSpineSouthC, m.spineC.getD 1 0), (F.thmQuadQuad0C, m.quadC.getD 0 0),
      (F.thmQuadQuad1C, m.quadC.getD 1 0), (F.thmQuadQuad2C, m.quadC.getD 2 0), (F.thmQuadQuad3C, m.quadC.getD 3 0)]
    let one := fun (b : Board) (f : Fld) (off : Nat) => b.inc Pg.thm off (b.fld Pg.thm f)
    one (one b2 F.thmStatusInletHigh Cn.thmInletHighTicks) F.thmStatusFlowLow Cn.thmFlowLowTicks)
  let s2 := (List.range 24).foldl (fun s t => s.junction t (m.tileC.getD t 0)) s1
  let s3 := s2.onBoard (fun b => b.inc Pg.thm Cn.thmWarnTicks (b.fld Pg.thm F.thmStatusWarnAny))
  if s3.board.flag Pg.pwr F.pwrGlobalStatusInputLow then
    ({ s3 with pwr := { s3.pwr with capUnder := 600 * m.vin / 1000 } }).applyCaps
  else s3

/-- The prediction at (duty, multiplier) fits the cap: the last tick's input power, each consumer's share scaled from the point in force
(R373). Shares that are all 0 leave the whole power fixed. -/
def powerFits (m : Meas) (cap d0 c0 d c : Nat) : Bool :=
  let fixed := if m.wFixed + m.wMclk + m.wArray = 0 then 1 else m.wFixed
  let total := fixed + m.wMclk + m.wArray
  decide (m.power * (fixed * d0 * c0 + m.wMclk * d0 * c + m.wArray * d * c) ≤ cap * total * d0 * c0)

/-- The highest duty that fits at a multiplier; 1 where none does. -/
def dutyAt (fits : Nat → Nat → Bool) (c : Nat) : Nat := (((List.range 16).map (16 - ·)).find? (fun d => fits d c)).getD 1

/-- The point of R373 up to a highest multiplier: the highest DUTY × CURRENT that fits, of equal ones the higher CURRENT. -/
def bestPoint (fits : Nat → Nat → Bool) (maxC : Nat) : Nat × Nat :=
  ((List.range (maxC + 1 - 10)).map (· + 10)).foldl (fun (best : Nat × Nat) c =>
    let d := dutyAt fits c
    if fits d c && decide (best.1 * best.2 ≤ d * c) then (d, c) else best) (1, 10)

/-- The next point on the way to the target: down by the duty allowed here and then one multiplier at a time, up only where the new point
fits. -/
def nextPoint (fits : Nat → Nat → Bool) (target d0 c0 : Nat) : Nat × Nat :=
  if target < c0 then (if fits d0 c0 || d0 == 1 then (dutyAt fits (c0 - 1), c0 - 1) else (dutyAt fits c0, c0))
  else if c0 < target && fits (dutyAt fits (c0 + 1)) (c0 + 1) then (dutyAt fits (c0 + 1), c0 + 1)
  else (dutyAt fits c0, c0)

/-- A step of CURRENT is recorded (R353): what page, bit and detail the record has is a choice (DESIGN CHOICE, notes/assumptions/39.md). -/
def Board.recordStep (b : Board) (tick cur : Nat) : Board :=
  let b1 := (b.setFld Pg.clk F.clkMclkStateCurrent cur).inc Pg.clk Cn.clkFreqSteps 1
  b1.appendB { b1.mkRec Pg.clk 5 0 b1.ringB.wi false false with detail := tick % 2 ^ 56 + 2 ^ 56 * cur }

/-- The duty of a tile: the lowest of the module's, its thermal state's and its limit's; what a limit of 85 % or 50 % requires is open
(R370, R371). -/
def State.tileDuty (s : State) (t : Nat) : State :=
  let p := Pg.pwrTile t
  let d := s.board.fld p F.pwrTileStatusDuty
  let heat := Tbl.get (fun _ => 16) s.pwr.heatDuty t
  let warm := Tbl.get (fun _ => false) s.pwr.warnTile t
  let h := if s.board.fld Pg.thm F.thmLimitsWarnC ≤ s.board.fld Pg.thm (F.thmTileMaxC t) then max 1 (d - 1) else if warm then heat else min 16 (heat + 1)
  let lim := s.board.fld p F.pwrTileStatusLimit
  let (k, s1) := if lim = 0 then (15, s) else s.freeNat
  let (e, s2) := s1.freeNat
  ({ s2 with pwr := { s2.pwr with heatDuty := Tbl.set (fun _ => 16) s2.pwr.heatDuty t h } }).onBoard (fun b =>
    ((b.setFld p F.pwrTileStatusDuty (min (min (b.fld Pg.pwr F.pwrGlobalOperatingDuty) h) (k % 16 + 1))).inc p Cn.pwrTileLimitTicks
      (b2n (decide (lim ≠ 0)))).inc p Cn.pwrTileVcoreEnergyJ e)

/-- A step of CURRENT begins: STEPPING reads 1 for an open time of at most 1 µs (R353). -/
def State.beginStep (c0 c : Nat) (s : State) : State :=
  if c = c0 then s
  else
    let (k, s1) := s.freeNat
    { s1 with clk := { s1.clk with stepEnd := s1.board.gtc + 1 + k % (50 * max c0 c) } }

/-- A boundary that is not held moves the operating point (R373); the energies of the tick are measured, so open. -/
def State.operate (m : Meas) (n : Nat) (s : State) : State :=
  let b := s.board
  let d0 := b.fld Pg.pwr F.pwrGlobalOperatingDuty
  let c0 := b.fld Pg.clk F.clkMclkStateCurrent
  let maxC := b.fld Pg.clk F.clkProfileMult
  let fits := powerFits m (b.fld Pg.pwr F.pwrGlobalCapEffectiveW10) d0 c0
  let unmet := !fits 1 10
  let x := nextPoint fits (bestPoint fits maxC).2 d0 c0
  let limiting := decide (x.1 < 16) || decide (x.2 < maxC)
  let (e, s1) := s.freeNat
  let s2 := s1.onBoard (fun b =>
    let b1 := b.setFlds Pg.pwr [(F.pwrGlobalOperatingDuty, x.1), (F.pwrGlobalStatusCapLimiting, b2n limiting), (F.pwrGlobalStatusCapUnmet, b2n unmet)]
    let b2 := ((b1.inc Pg.pwr Cn.pwrGlobalCapLimitTicks (b2n limiting)).inc Pg.pwr Cn.pwrGlobalCapUnmetTicks (b2n unmet)).inc Pg.pwr Cn.pwrGlobalEnergyInJ e
    let b3 := if unmet then b2.raise Pg.pwr F.pwrGlobalEventCapUnmet else b2
    if x.2 = c0 then b3 else b3.recordStep n x.2)
  let s3 := (if unmet then s2.pmLatch 5 else s2).beginStep c0 x.2
  (List.range 24).foldl State.tileDuty { s3 with pwr := { s3.pwr with capGate := false } }

/-! ### Contexts at a boundary (R157, R158, R338) -/

/-- A CTX_CFG write's LEVEL_PIN and SHARE. -/
def State.takePin (s : State) (n : Nat) : State :=
  match (s.ctx n).cfgNext with
  | some w =>
    ((s.setCf n F.opqCtxCfgLevelPin (fget w (F.opqCtxCfgLevelPin (n % 16)))).setCf n F.opqCtxCfgShare (fget w (F.opqCtxCfgShare (n % 16)))).updCtx n
      (fun c => { c with cfgNext := none })
  | none => s

/-- A boundary that is not held, for one context: the doorbell that the close point saw acts, a DISABLE whose operators have ended frees it,
a reset ends. -/
def State.ctxBoundary (s : State) (n : Nat) : State :=
  if s.cstate n = Cs.free then s
  else
    let s1 := (s.takePin n).updCtx n (fun c => { c with actPi := c.closePi })
    if (s1.ctx n).disablePending && (s1.live n).isEmpty then ((s1.leave n).updCtx n (fun c => { c with disablePending := false })).setCstate n Cs.free
    else if s1.cstate n = Cs.resetting then s1.setCstate n Cs.ready
    else s1

/-- No context of the core's partition replays a step, or the core is in no partition. -/
def State.auditOver (s : State) (c : Nat) : Bool :=
  match s.partOfCore c with
  | none => true
  | some p => !(List.range 256).any (fun n =>
      decide (s.cstate n ≠ Cs.free) && decide (s.partOf n = p) && ((s.ctx n).paused || decide ((s.ctx n).replayLeft ≠ 0)))

/-- The replay of an abort starts, and an audited one that has ended leaves the accumulators off (R110, R338). -/
def State.replayBoundary (s : State) (n : Nat) : State :=
  let due : Bool := match s.crown.resumeAt with
    | some a => decide (a ≤ n)
    | none => false
  let s1 := if due then
      let s1 := (List.range 256).foldl (fun s i => if (s.ctx i).paused then s.updCtx i (fun c => { c with paused := false }) else s) s
      ((List.range 16).foldl State.feedReplay s1).onCrown (fun c => { c with resumeAt := none })
    else s
  (List.range 96).foldl (fun s c =>
    if s.board.fld (Pg.spx c) F.spxStatusHaccMode = 3 && s.auditOver c then s.haccMode 0 c else s) s1

/-! ### Stalls (R192, R193, R248, R274) -/

/-- Marks a partition held by a stall, or not. -/
def State.markStall (s : State) (p : Nat) (on feed : Bool) : State :=
  let s1 := s.onBoard (fun b =>
    let h := b.fld Pg.crdGlobal F.crdGlobalStatusHeld
    (b.setFld Pg.opq0 (F.opq0PartCtrlStalled p) (b2n on)).setFld Pg.crdGlobal F.crdGlobalStatusHeld (if feed then setBit h p else clearBit h p))
  match s1.runningCtx p with
  | some n =>
    if on && s1.cstate n == Cs.running then s1.setCstate n Cs.stalled
    else if !on && s1.cstate n == Cs.stalled then s1.setCstate n Cs.running
    else s1
  | none => s1

/-- A partition holds: each cause counts once, the operators of its context count a held boundary. -/
def State.stallPart (s : State) (p : Nat) (causes : List Nat) : State :=
  let feed := s.feedWaits p
  let s1 := s.onBoard (fun b => causes.foldl (fun b c => b.inc Pg.mem (Cn.memStall c) 1) b)
  let s2 := if feed then s1.feedHold p else s1
  let s3 := if causes.contains 6 then s2.countBacklog (s2.backlogTrees p) else s2
  let s4 := match s3.runningCtx p with
    | some n =>
      (s3.updCtx n (fun c => { c with ops := c.ops.map (fun (o : OpRun) => if o.complete then o else { o with record := { o.record with stallTicks := o.record.stallTicks + 1 } }) })).onBoard
        (fun b => b.trace (s3.lead n / 4) 5 7 n (toLE 1 (causes.headD 0)))
    | none => s3
  s4.markStall p true feed

/-! ### The scheduler (R160) -/

/-- A descriptor of the context is pending: an operator is in flight, or one waits. -/
def State.hasWork (s : State) (n : Nat) : Bool := !(s.live n).isEmpty || decide (s.ci n ≠ (s.ctx n).actPi)

/-- A ready context. -/
def State.ready (s : State) (n : Nat) : Bool :=
  let c := s.ctx n
  (s.cstate n == Cs.ready || s.cstate n == Cs.running) && s.ringRoom n && c.owed.isEmpty &&
    (!(s.live n).isEmpty || (decide (s.ci n ≠ c.actPi) && !c.disablePending && !c.loadPending && !c.paused))

/-- The context with the highest credit; of equal ones the lowest number. -/
def State.topCredit (s : State) (l : List Nat) : Option Nat :=
  l.foldl (fun (best : Option Nat) n =>
    match best with
    | none => some n
    | some m => if (s.ctx m).credit < (s.ctx n).credit then some n else best) none

/-- A partition switches to a context, or goes on with it. A first context replaces none, so it is no switch (R157). -/
def State.switchTo (s : State) (p n : Nat) : State :=
  let cur := s.runningCtx p
  let s1 :=
    if cur = some n then s.setPart p { s.part p with run := (s.part p).run + 1 }
    else
      let s1 := match cur with
        | some m => if s.cstate m = Cs.running then s.setCstate m Cs.ready else s
        | none => s
      (((s1.setCstate n Cs.running).setRunning p (some n)).setPart p { s1.part p with run := 1 }).onBoard (fun b =>
        match cur with
        | some m => (b.inc Pg.opq0 Cn.opq0CtxSwitches 1).trace (s.lead n / 4) 5 3 n (toLE 1 m ++ toLE 1 n)
        | none => b)
  s1.onBoard (fun b => b.inc (ctxPage n) (Cn.opqRunTicks (n % 16)) 1)

/-- R160 for one partition. An arrival that is not chosen is an arrival again at the next boundary, counted once. -/
def State.schedule (s : State) (p : Nat) : State :=
  let cs := (List.range 256).filter (fun n => decide (s.cstate n ≠ Cs.free) && decide (s.partOf n = p))
  let rd := cs.filter s.ready
  let share := fun (n : Nat) => s.cf n F.opqCtxCfgShare
  let arr := rd.filter (fun n => !(s.ctx n).hadPending)
  let s1 := cs.foldl (fun s n => s.updCtx n (fun c => { c with credit := if rd.contains n then c.credit + (share n : Int) else 0 })) s
  let can := rd.filter (fun n => decide (share n ≠ 0))
  let first := arr.filter can.contains
  let cur := s.runningCtx p
  let stay : Bool := match cur with
    | some n => can.contains n && decide ((s.part p).run < s.board.fld Pg.opq0 (F.opq0PartCtrlMinRun p))
    | none => false
  let next := if !first.isEmpty then s1.topCredit first else if stay then cur else s1.topCredit can
  let waits := fun (n : Nat) => arr.contains n && next != some n
  let s2 := cs.foldl (fun s n => s.updCtx n (fun c => { c with hadPending := s.hasWork n && !waits n, arrived := waits n })) s1
  let s3 := s2.onBoard (fun b => b.inc Pg.opq0 Cn.opq0Arrivals (arr.filter (fun n => !(s.ctx n).arrived)).length)
  match next with
  | some n => (s3.updCtx n (fun c => { c with credit := c.credit - ((rd.map share).sum : Int) })).switchTo p n
  | none =>
    match cur with
    | some m => if s3.cstate m = Cs.running ∨ s3.cstate m = Cs.stalled then s3 else (s3.setRunning p none).setPart p { s3.part p with run := 0 }
    | none => s3

/-- The operator that a context's next task begins with: the one in progress, or the one at CI, fetched or not (R86, R137, R160). -/
def State.taskOp (s : State) (n : Nat) : Option (Nat × Bytes) :=
  match (s.live n).head? with
  | some o => some (o.qindex, o.desc)
  | none =>
    if s.cstate n == Cs.running && s.ready n then
      some (s.ci n, (((s.ctx n).fetched.find? (fun e => e.1 == s.ci n)).map Prod.snd).getD
        (s.rdBytes (s.qbase n + 128 * (s.ci n % s.qsize n)) 128))
    else none

/-- Every core of a partition starts a tick task of the running context, when it has an operator in progress or one that can start (R86). -/
def State.startTasks (s : State) (p g : Nat) : State :=
  match s.runningCtx p with
  | none => s
  | some n =>
    match s.taskOp n with
    | none => s
    | some (q, d) =>
      let s1 := s.updCtx n (fun c => { c with ops := c.ops.map (fun (o : OpRun) => if o.complete then o else { o with record := { o.record with ticks := o.record.ticks + 1 } }) })
      (s.partCores p).foldl (fun s c =>
        (s.setCore c { s.core c with task := some (n, q, g), doneAt := none, overran := none, sampled := false }).onBoard (fun b =>
          (b.setFld (Pg.core c) F.coreStatusBusy 1).trace (c / 4) (c % 4) 1 n (toLE 2 q ++ toLE 1 (Desc.ofBytes d).opcode ++ toLE 1 p))) s1

/-- A partition holds, or runs R160 and starts its tasks. -/
def State.partBoundary (g : Nat) (s : State) (p : Nat) : State :=
  let causes := (s.part p).causes
  if (s.partCores p).isEmpty then s
  else if !causes.isEmpty then s.stallPart p ((List.range 8).filter (fun c => causes.contains c || (c == 4 && s.fab.hotParts.contains p)))
  else ((s.markStall p false false).schedule p).startTasks p g

/-- STALL_LAST after a boundary at which partitions held: the lowest cause of all, and the lowest partition that counts it. -/
def State.noteStalls (s : State) (g : Nat) : State :=
  let held := (List.range 16).filter (fun p => !(s.partCores p).isEmpty && !(s.part p).causes.isEmpty)
  match (List.range 8).find? (fun c => held.any (fun p => (s.part p).causes.contains c)) with
  | some c => s.stallLast c ((held.find? (fun p => (s.part p).causes.contains c)).getD 0) g
  | none => s

/-- The partitions of a module in SERVICE. -/
def State.partsBoundary (s : State) (g : Nat) : State :=
  if s.inService then ((List.range 16).foldl (State.partBoundary g) s).noteStalls g
  else (List.range 16).foldl (fun s p => s.markStall p false false) s

/-- Contexts whose completion ring is full (R140). -/
def State.ringsFull (s : State) : State :=
  let k := ((List.range 256).filter (fun n => decide (s.cstate n ≠ Cs.free) && !s.ringRoom n)).length
  if k = 0 then s else s.onBoard (fun b => (b.inc Pg.opq0 Cn.opq0CringFullTicks k).raise Pg.opq0 F.opq0EventCringFull)

/-! ### Snapshots (R325, R441) -/

/-- The counters of bytes and lent slots on the fabric, the slices and the channels: they follow the library's schedule (R198, R200, R226,
R227). -/
def trafficCnts : List (Nat × Nat) :=
  [(Pg.fabSpine, Cn.fabSpineJoinBytesN2s), (Pg.fabSpine, Cn.fabSpineJoinBytesS2n), (Pg.fabSpine, Cn.fabSpineSlotLoans)] ++
    (List.range 24).flatMap (fun t => [(Pg.slc t, Cn.slcReadBytes), (Pg.slc t, Cn.slcWriteBytes), (Pg.fabTile t, Cn.fabTileXbarBytesIn),
      (Pg.fabTile t, Cn.fabTileXbarBytesOut), (Pg.fabTile t, Cn.fabTileUplinkBytesUp), (Pg.fabTile t, Cn.fabTileUplinkBytesDown),
      (Pg.fabTile t, Cn.fabTileSlotLoans)]) ++
    (List.range 96).flatMap (fun k => [(Pg.drm k, Cn.drmReadBytes), (Pg.drm k, Cn.drmWriteBytes), (Pg.drm k, Cn.drmRemoteBytes), (Pg.drm k, Cn.drmSlotLoans)])

/-- The traffic counters of powered pages advance by free numbers before each copy, which alone shows them (notes/assumptions/2.md). -/
def State.traffic (s : State) : State :=
  trafficCnts.foldl (fun s c => if s.powered c.1 then s.freeNat.2.onBoard (fun b => b.inc c.1 c.2 s.freeNat.1) else s) s

/-- Every counter is copied; a SNAPSHOT whose target has come copies them into the image. -/
def State.snapshotAt (s0 : State) (n : Nat) : State :=
  let s := s0.traffic
  let s1 := s.onBoard (fun b => { b with snap := b.live })
  match (s1.crown.snaps.filter (fun t => decide (t ≤ n))).getLast? with
  | none => s1
  | some t =>
    (s1.onCrown (fun c => { c with snaps := c.snaps.filter (fun t => !decide (t ≤ n)) })).onBoard (fun b =>
      ((({ b with image := b.snap }).wr64 Pg.tel F.telSnapTickLoTick.off t).inc Pg.tel Cn.telSnapshots 1).raise Pg.tel F.telEventSnapshotDone)

/-! ### The grid (R322, R333, R334, R344, R415) -/

/-- SYNC down the control tree: a crown's own grid point, or the crown's time of it on a module that still follows one. -/
def State.sendSync (s : State) (n g : Nat) : State :=
  let c := s.crown
  if s.role = 0 ∨ s.quiet = true then s
  else if s.holdsTop then s.toChildren 0 0x01 (bodyOf 32 [(0, 8, g), (8, 8, n), (16, 4, c.period)])
  else if c.follows && decide (c.syncLost = 0) then s.toChildren 0 0x01 (bodyOf 32 [(0, 8, c.origin + n * c.crownPer), (8, 8, n), (16, 4, c.crownPer)])
  else s

/-- A grid point of the group: SYNC, the delay measurement every 4,096 ticks, and one more grid point without a SYNC. -/
def State.groupTick (s : State) (n g : Nat) : State :=
  let s1 := s.sendSync n g
  let s2 := if n % 4096 = 0 ∧ s.quiet = false then s1.askDelay else s1
  if s2.isFollower then s2.onCrown (fun c => { c with syncLost := c.syncLost + 1 }) else s2

/-- The boundary is a step boundary of the module: a context has completed a STEP, or no context is there to run one. -/
def State.stepHere (s : State) : Bool := s.crown.stepEnd || (List.range 256).all (fun n => s.cstate n == Cs.free)

/-- The grid moves onto the crown's (R334): the grid point of the crown's grid at or after g; whether that is g itself. -/
def State.moveGrid (s : State) (g : Nat) : Bool × State :=
  match s.crown.moveTo with
  | some (t, est, per) =>
    if s.stepHere && decide (0 < per) then
      let k := ceilDiv (g - est) per
      let at_ := est + k * per
      let s1 := ((s.anchor (t + k) at_ per).onCrown (fun c => { c with moveTo := none, tick := if at_ = g then t + k else t + k - 1 })).onBoard (fun b =>
        b.setFld Pg.tk F.tkStatusGroupLocked 1)
      (decide (at_ = g), s1)
    else (true, s)
  | none => (true, s)

/-- The role at the start of a job (R329, R349): a module that has none takes it from CROWN.INITIAL. A crown is aligned to itself. -/
def State.firstRole (s : State) : State :=
  if s.role ≠ 0 ∨ s.board.flag Pg.bup F.bupStatusExcluded then s
  else
    let i := s.board.fld Pg.role F.roleCrownInitial
    let own := decide (i = 0xFFF) || decide (i = s.rack)
    (s.setRole (if own then s.crownRole else 1)).onBoard (fun b =>
      when own (fun b => b.setFld Pg.tk F.tkStatusGroupLocked 1) (b.setFld Pg.role F.roleCrownCurrent (if own then s.rack else i)))

/-- CHECKING ended with no cause standing: SERVICE, unless a cause has come since (R415). A period that HELD has changed governs from here
(R322). -/
def State.enterService (s : State) (g : Nat) : State :=
  if !s.bup.toService then s
  else
    let s1 : State := { s with bup := { s.bup with toService := false } }
    if s1.board.held then s1.enterHeld
    else
      let per := s1.board.fld Pg.tk F.tkPeriodCycles
      let s2 : State := { s1 with bup := { s1.bup with served := true, regrid := false }, store := { s1.store with reached := true } }
      let s3 := (s2.onBoard (fun b => b.setState St.service)).firstRole
      let s4 := (List.range 256).foldl (fun s i => if (s.ctx i).paused then s.updCtx i (fun c => { c with paused := false }) else s) s3
      if s4.crown.follows ∨ per = s4.crown.period then s4 else s4.startGrid g per

/-- A TK.PERIOD write before SERVICE restarts the grid here (R322). -/
def State.regridAt (s : State) (g : Nat) : State :=
  if s.bup.regrid then ({ s with bup := { s.bup with regrid := false } }).startGrid g (s.board.fld Pg.tk F.tkPeriodCycles) else s

/-- Operators and tasks of a module that has left SERVICE for HELD end (R416). -/
def State.heldEnds (s : State) : State :=
  if !s.bup.heldAbort then s
  else
    let s1 := s.busyCores.foldl State.endTask { s with bup := { s.bup with heldAbort := false } }
    (List.range 256).foldl State.rewind s1

/-! ### The boundary (R325 to R327) -/

/-- What waits for a boundary that is not held: remaps, plans and swaps, trees, tier-map changes and the commands behind them, contexts. -/
def State.changesAt (s : State) (n : Nat) : State :=
  let s1 := if s.inService then s.applyRemaps false else s
  let s2 := (List.range 16).foldl (fun s p => (s.feedAge p).feedBoundary p) s1
  let s3 := ((s2.treeNums ++ ((List.range 64).filter (fun t => !s2.treeNums.contains t && s2.board.rd (treePage t) (0x100 + 64 * treeSlot t) != 0))).foldl
    State.treeBoundary s2)
  let s4 := ((s3.releaseFrames.applyChanges).boundaryCmd.runMem).migrate
  ((List.range 256).foldl State.ctxBoundary s4).replayBoundary n

/-- What belongs to the tick that has ended is latched and cleared. -/
def State.newTick (s : State) : State :=
  let s1 := (List.range 96).foldl State.latchPeak s
  let s2 := s1.onBoard (fun b => b.setCnt Pg.fabSpine Cn.fabSpineLatMax s.fab.latMax)
  { s2 with fab := { s2.fab with latMax := 0, hotParts := [], seamReplays := [] }, crown := { s2.crown with stepEnd := false }
            mgmt := { s2.mgmt with sinceFrame := s2.mgmt.sinceFrame + 1 } }

/-- A boundary that is not held, or the release of one that was. -/
def State.freeTick (m : Meas) (n g : Nat) (s : State) : State :=
  let s1 := s.onBoard (fun b => b.setFld Pg.tk F.tkStatusHeld 0)
  let s2 := ((List.range 96).foldl (State.endTick g) s1).measure m
  let s3 := ((s2.operate m n).resetsAt n).changesAt n
  let s4 := ((s3.partsBoundary g).ringsFull).newTick.snapshotAt n
  (s4.enterService g).regridAt g

/-- The cores whose tick task the close point saw incomplete. -/
def State.lateCores (s : State) : List Nat := (List.range 96).filter (fun c => (s.core c).task.isSome && !(s.core c).sampled)

/-- A grid point. A crown that the deputy did not replace either holds the module at a step boundary (R344). -/
def State.boundary (m : Meas) (s : State) : State :=
  let n := s.crown.tick + 1
  let g := s.gridPoint n
  let s0 := if s.crown.closed then s else s.closeAt g
  let s1 := ((s0.onCrown (fun c => { c with tick := n, closed := false })).onBoard (fun b =>
    { b with gtc := max b.gtc g }.inc Pg.tk Cn.tkTicks 1)).syncTk
  let s2 := (((s1.handoverAt n).groupTick n g).abortsAt n).heldEnds
  let late := s2.lateCores
  if !late.isEmpty && !s2.bup.resetPending then s2.holdTick late g
  else if s2.crown.deputyLost && s2.crown.stepEnd then s2.holdTick [] g
  else
    let (here, s3) := s2.moveGrid g
    if here then (s3.syncTk).freeTick m s3.crown.tick g else (s3.syncTk).holdTick [] g

/-- TICK_BOUNDARY (R325): the coming grid point, with what the sensors measured over the tick that it ends. -/
def execTickBoundary (meas : Meas) (s : State) : Host.Outcome State Fault Refusal := done s (if s.gridRuns && s.alive then s.boundary meas else s)

end Sys2Proof.Machine
end

