-- ==== Sys2Proof/Machine/Dispatch.lean ====
section
/-! DEFINITION. Every command to its meaning: one arm per constructor, one direct call each. -/
namespace Sys2Proof.Machine

/-- The effect of a command on everything but the queue. -/
def exec (i : Instr) (s : State) : Host.Outcome State Fault Refusal :=
  match i with
  | .tickBoundary m => Sys2Proof.Machine.execTickBoundary m s
  | .closePoint => Sys2Proof.Machine.execClosePoint s
  | .slowFlag core => Sys2Proof.Machine.execSlowFlag core s
  | .sliceHot slice cycles waiting => Sys2Proof.Machine.execSliceHot slice cycles waiting s
  | .linkHot sw port cycles waiting => Sys2Proof.Machine.execLinkHot sw port cycles waiting s
  | .seSaturated core => Sys2Proof.Machine.execSeSaturated core s
  | .taskComplete core at_ => Sys2Proof.Machine.execTaskComplete core at_ s
  | .doorbell link ctx value => Sys2Proof.Machine.execDoorbell link ctx value s
  | .descriptorFetch ctx => Sys2Proof.Machine.execDescriptorFetch ctx s
  | .nop ctx => Sys2Proof.Machine.execNop ctx s
  | .step ctx => Sys2Proof.Machine.execStep ctx s
  | .gemm ctx => Sys2Proof.Machine.execGemm ctx s
  | .gemmGrouped ctx => Sys2Proof.Machine.execGemmGrouped ctx s
  | .attn ctx => Sys2Proof.Machine.execAttn ctx s
  | .elem ctx => Sys2Proof.Machine.execElem ctx s
  | .norm ctx => Sys2Proof.Machine.execNorm ctx s
  | .softmax ctx => Sys2Proof.Machine.execSoftmax ctx s
  | .reduce ctx => Sys2Proof.Machine.execReduce ctx s
  | .gather ctx => Sys2Proof.Machine.execGather ctx s
  | .scatterAdd ctx => Sys2Proof.Machine.execScatterAdd ctx s
  | .moeDispatch ctx => Sys2Proof.Machine.execMoeDispatch ctx s
  | .moeCombine ctx => Sys2Proof.Machine.execMoeCombine ctx s
  | .quant ctx => Sys2Proof.Machine.execQuant ctx s
  | .dequant ctx => Sys2Proof.Machine.execDequant ctx s
  | .relay ctx => Sys2Proof.Machine.execRelay ctx s
  | .transpose ctx => Sys2Proof.Machine.execTranspose ctx s
  | .sample ctx => Sys2Proof.Machine.execSample ctx s
  | .fullReduce ctx => Sys2Proof.Machine.execFullReduce ctx s
  | .broadcast ctx => Sys2Proof.Machine.execBroadcast ctx s
  | .allgather ctx => Sys2Proof.Machine.execAllgather ctx s
  | .migratePromote ctx => Sys2Proof.Machine.execMigratePromote ctx s
  | .migrateDemote ctx => Sys2Proof.Machine.execMigrateDemote ctx s
  | .migrateSeal ctx => Sys2Proof.Machine.execMigrateSeal ctx s
  | .operatorComplete ctx qindex => Sys2Proof.Machine.execOperatorComplete ctx qindex s
  | .budget ctx qindex => Sys2Proof.Machine.execBudget ctx qindex s
  | .enable link ctx => Sys2Proof.Machine.execEnable link ctx s
  | .contextReset link ctx => Sys2Proof.Machine.execContextReset link ctx s
  | .disable link ctx => Sys2Proof.Machine.execDisable link ctx s
  | .strandFault core ctx qindex strand => Sys2Proof.Machine.execStrandFault core ctx qindex strand s
  | .arrayCheck core site => Sys2Proof.Machine.execArrayCheck core site s
  | .wsEccError core sector uncorrectable => Sys2Proof.Machine.execWsEccError core sector uncorrectable s
  | .haccUpdate core key value => Sys2Proof.Machine.execHaccUpdate core key value s
  | .readRequest core addr len desc forNext => Sys2Proof.Machine.execReadRequest core addr len desc forNext s
  | .readResponse tag latency status => Sys2Proof.Machine.execReadResponse tag latency status s
  | .writeBurst src dst addr data whole => Sys2Proof.Machine.execWriteBurst src dst addr data whole s
  | .writeAck src => Sys2Proof.Machine.execWriteAck src s
  | .linkReplay sw port ok => Sys2Proof.Machine.execLinkReplay sw port ok s
  | .seamReplay tile dir group wire => Sys2Proof.Machine.execSeamReplay tile dir group wire s
  | .alloc link => Sys2Proof.Machine.execAlloc link s
  | .free link => Sys2Proof.Machine.execFree link s
  | .loadHood link => Sys2Proof.Machine.execLoadHood link s
  | .mapRemote link => Sys2Proof.Machine.execMapRemote link s
  | .installHood link => Sys2Proof.Machine.execInstallHood link s
  | .eraseHood link => Sys2Proof.Machine.execEraseHood link s
  | .undefinedMemCmd link op => Sys2Proof.Machine.execUndefinedMemCmd link op s
  | .memCmdComplete => Sys2Proof.Machine.execMemCmdComplete s
  | .loadComplete => Sys2Proof.Machine.execLoadComplete s
  | .migrationPageDone page => Sys2Proof.Machine.execMigrationPageDone page s
  | .memoryEccError dram unit pos uncorrectable => Sys2Proof.Machine.execMemoryEccError dram unit pos uncorrectable s
  | .refetchDone page => Sys2Proof.Machine.execRefetchDone page s
  | .pounceScrub => Sys2Proof.Machine.execPounceScrub s
  | .channelDown ch => Sys2Proof.Machine.execChannelDown ch s
  | .arm link p => Sys2Proof.Machine.execArm link p s
  | .armNext link p => Sys2Proof.Machine.execArmNext link p s
  | .disarm link p => Sys2Proof.Machine.execDisarm link p s
  | .retry link p => Sys2Proof.Machine.execRetry link p s
  | .batt hdr => Sys2Proof.Machine.execBatt hdr s
  | .battPayloadEnd p idx payload => Sys2Proof.Machine.execBattPayloadEnd p idx payload s
  | .battCommit p idx => Sys2Proof.Machine.execBattCommit p idx s
  | .chainForward p idx pos unit => Sys2Proof.Machine.execChainForward p idx pos unit s
  | .chainCommitNotice p idx => Sys2Proof.Machine.execChainCommitNotice p idx s
  | .nak body => Sys2Proof.Machine.execNak body s
  | .battMissing p idx => Sys2Proof.Machine.execBattMissing p idx s
  | .battDeadline p idx => Sys2Proof.Machine.execBattDeadline p idx s
  | .barrierArrive core => Sys2Proof.Machine.execBarrierArrive core s
  | .barrierComplete p => Sys2Proof.Machine.execBarrierComplete p s
  | .localSegment core tree seg => Sys2Proof.Machine.execLocalSegment core tree seg s
  | .seg group body => Sys2Proof.Machine.execSeg group body s
  | .endMsg group body => Sys2Proof.Machine.execEndMsg group body s
  | .win group body => Sys2Proof.Machine.execWin group body s
  | .down group body => Sys2Proof.Machine.execDown group body s
  | .downEnd group body => Sys2Proof.Machine.execDownEnd group body s
  | .segmentRelease tree => Sys2Proof.Machine.execSegmentRelease tree s
  | .missingDeadline tree => Sys2Proof.Machine.execMissingDeadline tree s
  | .treeCfgWrite link q off value => Sys2Proof.Machine.execTreeCfgWrite link q off value s
  | .flitReceive engine flit => Sys2Proof.Machine.execFlitReceive engine flit s
  | .replayReq engine ack => Sys2Proof.Machine.execReplayReq engine ack s
  | .ackTimeout engine => Sys2Proof.Machine.execAckTimeout engine s
  | .replayFail engine => Sys2Proof.Machine.execReplayFail engine s
  | .laneRetrain engine lane => Sys2Proof.Machine.execLaneRetrain engine lane s
  | .laneSwapRequest engine x y => Sys2Proof.Machine.execLaneSwapRequest engine x y s
  | .laneRetrainDone engine rx lane ok => Sys2Proof.Machine.execLaneRetrainDone engine rx lane ok s
  | .lightLoss group => Sys2Proof.Machine.execLightLoss group s
  | .ringUnlock engine lane => Sys2Proof.Machine.execRingUnlock engine lane s
  | .engineUp engine txGood rxGood half => Sys2Proof.Machine.execEngineUp engine txGood rxGood half s
  | .engineDown engine => Sys2Proof.Machine.execEngineDown engine s
  | .messageReceive group cls gmsn subkind body => Sys2Proof.Machine.execMessageReceive group cls gmsn subkind body s
  | .offer group body => Sys2Proof.Machine.execOffer group body s
  | .accept group body => Sys2Proof.Machine.execAccept group body s
  | .refuse group body => Sys2Proof.Machine.execRefuse group body s
  | .close group => Sys2Proof.Machine.execClose group s
  | .reoffer link group => Sys2Proof.Machine.execReoffer link group s
  | .farLoop group body => Sys2Proof.Machine.execFarLoop group body s
  | .loopback link engine value => Sys2Proof.Machine.execLoopback link engine value s
  | .peerMessage group body => Sys2Proof.Machine.execPeerMessage group body s
  | .rdata group body => Sys2Proof.Machine.execRdata group body s
  | .rreadTimeout tag => Sys2Proof.Machine.execRreadTimeout tag s
  | .sync group body at_ => Sys2Proof.Machine.execSync group body at_ s
  | .delayReq group body => Sys2Proof.Machine.execDelayReq group body s
  | .delayResp group body => Sys2Proof.Machine.execDelayResp group body s
  | .arrive group body => Sys2Proof.Machine.execArrive group body s
  | .release group body => Sys2Proof.Machine.execRelease group body s
  | .abort group body => Sys2Proof.Machine.execAbort group body s
  | .abortTakeEffect => Sys2Proof.Machine.execAbortTakeEffect s
  | .snapshot body => Sys2Proof.Machine.execSnapshot body s
  | .groupReset body => Sys2Proof.Machine.execGroupReset body s
  | .remap group body => Sys2Proof.Machine.execRemap group body s
  | .remapTakeEffect => Sys2Proof.Machine.execRemapTakeEffect s
  | .slowReport group body => Sys2Proof.Machine.execSlowReport group body s
  | .battFailureNotice group body => Sys2Proof.Machine.execBattFailureNotice group body s
  | .missingContributorNotice group body => Sys2Proof.Machine.execMissingContributorNotice group body s
  | .swapReq group body => Sys2Proof.Machine.execSwapReq group body s
  | .swapAccept group body => Sys2Proof.Machine.execSwapAccept group body s
  | .swapRefuse group body => Sys2Proof.Machine.execSwapRefuse group body s
  | .swapCommit group body => Sys2Proof.Machine.execSwapCommit group body s
  | .handoverTakeEffect => Sys2Proof.Machine.execHandoverTakeEffect s
  | .crownAnnounce group body => Sys2Proof.Machine.execCrownAnnounce group body s
  | .crownLost => Sys2Proof.Machine.execCrownLost s
  | .swapReqCmd link value => Sys2Proof.Machine.execSwapReqCmd link value s
  | .meshLock us => Sys2Proof.Machine.execMeshLock us s
  | .lockLost osc => Sys2Proof.Machine.execLockLost osc s
  | .phaseLimit ps => Sys2Proof.Machine.execPhaseLimit ps s
  | .fifoOverrun kind inst replayed => Sys2Proof.Machine.execFifoOverrun kind inst replayed s
  | .cdcTimeout clock => Sys2Proof.Machine.execCdcTimeout clock s
  | .resetNotify side => Sys2Proof.Machine.execResetNotify side s
  | .flushDone side => Sys2Proof.Machine.execFlushDone side s
  | .inputLow v => Sys2Proof.Machine.execInputLow v s
  | .inputLowClear v => Sys2Proof.Machine.execInputLowClear v s
  | .inputLoss v => Sys2Proof.Machine.execInputLoss v s
  | .inputDip v => Sys2Proof.Machine.execInputDip v s
  | .flushStart => Sys2Proof.Machine.execFlushStart s
  | .flushComplete present => Sys2Proof.Machine.execFlushComplete present s
  | .epo => Sys2Proof.Machine.execEpo s
  | .powerPresent v => Sys2Proof.Machine.execPowerPresent v s
  | .openPhase tile phase => Sys2Proof.Machine.execOpenPhase tile phase s
  | .senseFail tile phase => Sys2Proof.Machine.execSenseFail tile phase s
  | .ocGate tile periods => Sys2Proof.Machine.execOcGate tile periods s
  | .capLocal link value => Sys2Proof.Machine.execCapLocal link value s
  | .gaugeSample vbank drawn cap => Sys2Proof.Machine.execGaugeSample vbank drawn cap s
  | .inletHigh inlet flow => Sys2Proof.Machine.execInletHigh inlet flow s
  | .junctionWarn tile temp => Sys2Proof.Machine.execJunctionWarn tile temp s
  | .thermalTrip => Sys2Proof.Machine.execThermalTrip s
  | .sensorFail tile other => Sys2Proof.Machine.execSensorFail tile other s
  | .sweatDrop tile mv => Sys2Proof.Machine.execSweatDrop tile mv s
  | .clearFaults => Sys2Proof.Machine.execClearFaults s
  | .statusWord => Sys2Proof.Machine.execStatusWord s
  | .readVin => Sys2Proof.Machine.execReadVin s
  | .readIin => Sys2Proof.Machine.execReadIin s
  | .readTemperature1 => Sys2Proof.Machine.execReadTemperature1 s
  | .readPin => Sys2Proof.Machine.execReadPin s
  | .pmbusRevision => Sys2Proof.Machine.execPmbusRevision s
  | .mfrId => Sys2Proof.Machine.execMfrId s
  | .mfrPowerCap value => Sys2Proof.Machine.execMfrPowerCap value s
  | .pmbusNack code => Sys2Proof.Machine.execPmbusNack code s
  | .powerOn link => Sys2Proof.Machine.execPowerOn link s
  | .powerOff link => Sys2Proof.Machine.execPowerOff link s
  | .recheck link => Sys2Proof.Machine.execRecheck link s
  | .acceptCmd link mask => Sys2Proof.Machine.execAcceptCmd link mask s
  | .computeReset link => Sys2Proof.Machine.execComputeReset link s
  | .computeResetTakeEffect => Sys2Proof.Machine.execComputeResetTakeEffect s
  | .cfgBegin link => Sys2Proof.Machine.execCfgBegin link s
  | .cfgData link value => Sys2Proof.Machine.execCfgData link value s
  | .cfgCommit link => Sys2Proof.Machine.execCfgCommit link s
  | .cfgRevert link => Sys2Proof.Machine.execCfgRevert link s
  | .bringupStageEnd ms found => Sys2Proof.Machine.execBringupStageEnd ms found s
  | .stageTimeout ms found => Sys2Proof.Machine.execStageTimeout ms found s
  | .checkingComplete => Sys2Proof.Machine.execCheckingComplete s
  | .topoWait => Sys2Proof.Machine.execTopoWait s
  | .heldEntry page bit => Sys2Proof.Machine.execHeldEntry page bit s
  | .fieldDefectAppend entry => Sys2Proof.Machine.execFieldDefectAppend entry s
  | .logProgram => Sys2Proof.Machine.execLogProgram s
  | .claim link => Sys2Proof.Machine.execClaim link s
  | .releaseOwner link => Sys2Proof.Machine.execReleaseOwner link s
  | .pcieLinkReset link => Sys2Proof.Machine.execPcieLinkReset link s
  | .bar2Read link off len => Sys2Proof.Machine.execBar2Read link off len s
  | .bar2Write link off data => Sys2Proof.Machine.execBar2Write link off data s
  | .cap dgram => Sys2Proof.Machine.execCap dgram s
  | .mgmtPowerOn dgram => Sys2Proof.Machine.execMgmtPowerOn dgram s
  | .mgmtPowerOff dgram => Sys2Proof.Machine.execMgmtPowerOff dgram s
  | .mgmtComputeReset dgram => Sys2Proof.Machine.execMgmtComputeReset dgram s
  | .setOwner dgram => Sys2Proof.Machine.execSetOwner dgram s
  | .readReg dgram => Sys2Proof.Machine.execReadReg dgram s
  | .readMem dgram => Sys2Proof.Machine.execReadMem dgram s
  | .subscribe dgram => Sys2Proof.Machine.execSubscribe dgram s
  | .remoteAccess dgram => Sys2Proof.Machine.execRemoteAccess dgram s
  | .unknownMgmtOp dgram => Sys2Proof.Machine.execUnknownMgmtOp dgram s
  | .telemetryFrame => Sys2Proof.Machine.execTelemetryFrame s
  | .eventW1c link page value => Sys2Proof.Machine.execEventW1c link page value s
  | .evtHoldoffExpiry => Sys2Proof.Machine.execEvtHoldoffExpiry s
  | .lowWordRead link page off => Sys2Proof.Machine.execLowWordRead link page off s
  | .tkPeriodWrite link value => Sys2Proof.Machine.execTkPeriodWrite link value s
  | .splitWrite link value => Sys2Proof.Machine.execSplitWrite link value s
  | .revoke link slot => Sys2Proof.Machine.execRevoke link slot s
  | .keyData link value => Sys2Proof.Machine.execKeyData link value s
  | .install link => Sys2Proof.Machine.execInstall link s
  | .keyClear link => Sys2Proof.Machine.execKeyClear link s
  | .keyGraceExpiry slot => Sys2Proof.Machine.execKeyGraceExpiry slot s
  | .registerWrite link addr len value => Sys2Proof.Machine.execRegisterWrite link addr len value s
  | .lightReturn group => Sys2Proof.Machine.execLightReturn group s
  | .aclkReturn => Sys2Proof.Machine.execAclkReturn s
  | .pcieLinkUp link rate width => Sys2Proof.Machine.execPcieLinkUp link rate width s
  | .mgmtPortLink up => Sys2Proof.Machine.execMgmtPortLink up s
  | .thermalCapClear => Sys2Proof.Machine.execThermalCapClear s
  | .capGateDeadline => Sys2Proof.Machine.execCapGateDeadline s
  | .jobBarrierRelease => Sys2Proof.Machine.execJobBarrierRelease s
  | .newMapVersion engine version => Sys2Proof.Machine.execNewMapVersion engine version s
  | .deputyLost => Sys2Proof.Machine.execDeputyLost s
  | .classBFaultReport group body => Sys2Proof.Machine.execClassBFaultReport group body s
  | .degradedReport group body => Sys2Proof.Machine.execDegradedReport group body s
  | .hostExclusion link body => Sys2Proof.Machine.execHostExclusion link body s
  | .crownRetryRequest body => Sys2Proof.Machine.execCrownRetryRequest body s
  | .faultDrainComplete => Sys2Proof.Machine.execFaultDrainComplete s
  | .remoteAccessResponse link status data => Sys2Proof.Machine.execRemoteAccessResponse link status data s
  | .bar0Read link addr len => Sys2Proof.Machine.execBar0Read link addr len s
  | .blockRetired spareLow => Sys2Proof.Machine.execBlockRetired spareLow s
  | .nandErrorCorrected => Sys2Proof.Machine.execNandErrorCorrected s

end Sys2Proof.Machine
end

