-- ==== Sys2Proof/Safety.lean ====
section
/-! DEFINITION. What a safe state is, and the words that the statements use: the canonical forms that every step keeps, the
state codes of R391, when a host's register write reaches its register, and what a command leaves unchanged. -/
namespace Sys2Proof.Machine

/-- The register table, the counters and memory are in their canonical form. -/
def State.canonical (s : State) : Bool :=
  Tbl.wf regDefault s.board.regs && Tbl.wf zero64 s.board.live && Tbl.wf zero64 s.board.snap && memWf s.mem

/-- The module state is one that R391 lists. -/
def State.legalState (s : State) : Bool := decide (s.board.st ≤ St.faulted)

/-! ### Completion -/

/-- The command answers a next state, leaves the queue as the step left it, and `Q` holds of that state. -/
def Completes (c : Instr) (s : State) (Q : State → Prop) : Prop :=
  ∃ t, exec c s = .next t ∧ t.pending = s.pending ∧ Q t

/-! ### Frames -/

/-- Whether something the module sent is an MSI-X vector message. -/
def Out.isVector : Out → Bool
  | .vector _ _ => true
  | _ => false

/-- What the module has sent beside vectors, newest last. -/
def Board.msgs (b : Board) : List Out := b.out.filter (fun o => !o.isVector)

/-- From `b` to `b'` only the registers `rs` and the counters `cs` change (page and offset), the module sends `sent` beside
vectors, and nothing else of the board changes but the logs, the trace rings and the pending vectors. -/
structure Board.Keeps (b b' : Board) (rs cs : List (Nat × Nat)) (sent : List Out) : Prop where
  gtc : b'.gtc = b.gtc
  on : b'.on = b.on
  snap : b'.snap = b.snap
  image : b'.image = b.image
  latch : b'.latch = b.latch
  shelfLog : b'.shelfLog = b.shelfLog
  table : ∀ l off, off < 4096 → b'.msixRd l false off = b.msixRd l false off
  regs : ∀ p off, (∀ r ∈ rs, regKey r.1 r.2 ≠ regKey p off) → b'.rd p off = b.rd p off
  cnts : ∀ p off, (∀ c ∈ cs, cntKey c.1 c.2 ≠ cntKey p off) → b'.cnt p off = b.cnt p off
  sends : b'.msgs = b.msgs ++ sent

/-- The bits of a word other than `bits` are as before. -/
def Board.word (b b' : Board) (p off : Nat) (bits : List Nat) : Prop :=
  ∀ i, i ∉ bits → (b'.rd p off).getLsbD i = (b.rd p off).getLsbD i

/-- No record is logged or traced and no vector is signalled. -/
structure Board.Silent (b b' : Board) : Prop where
  ringC : b'.ringC = b.ringC
  ringB : b'.ringB = b.ringB
  coal : b'.coal = b.coal
  toShelf : b'.toShelf = b.toShelf
  traces : b'.traces = b.traces
  evCls : b'.evCls = b.evCls
  msix : b'.msix = b.msix
  holding : b'.holding = b.holding
  heldBack : b'.heldBack = b.heldBack
  out : b'.out.filter Out.isVector = b.out.filter Out.isVector

/-- The registers that logging and tracing touch: TRC.STATUS and TRC.EVENT. -/
def logRegs : List (Nat × Nat) := [(Pg.trc, 0x010), (Pg.trc, 0x018)]

/-- The counters that logging and tracing touch: all of TRC's. -/
def logCnts : List (Nat × Nat) := (List.range 10).map (fun i => (Pg.trc, 0x800 + 8 * i))

/-- The EVENT register of a page. -/
def evReg (p : Nat) : Nat × Nat := (p, evtOff)

/-- The registers that events on the pages `ps` touch. -/
def evs (ps : List Nat) : List (Nat × Nat) := ps.map evReg ++ logRegs

/-- The registers and counters that an access error or a level event of a host write touches (R463, R465). -/
def hostRegs : List (Nat × Nat) :=
  [(Pg.mod, F.modAccessLastPage.off), (Pg.mod, F.modLevelLastPage.off), (Pg.mod, F.modLevelMaskBits.off), (Pg.mod, evtOff)] ++ logRegs
def hostCnts : List (Nat × Nat) := (Pg.mod, Cn.modBar0Writes) :: (Pg.mod, Cn.modAccessErrors) :: (Pg.mod, Cn.modLevelWrites) :: logCnts

/-! ### Host writes -/

/-- The state with one more accepted BAR0 write counted. -/
def State.counted (s : State) : State := s.onBoard (fun b => b.inc Pg.mod Cn.modBar0Writes 1)

/-- A host's write on a link to a page reaches the register (R464): the module answers, the unit is present, the link owns the
module, the page is powered, and no flush runs (R380). -/
abbrev State.mayWrite (s : State) (l : Link) (page : Nat) : Prop :=
  s.answers = true ∧ s.present page = true ∧ s.board.owner = some (linkIdx l) ∧ s.powered page = true ∧
    s.board.flag Pg.pwr F.pwrGlobalStatusFlushing = false

/-! ### Power -/

/-- PWR.CAP_EFFECTIVE shows the lowest nonzero cap source and its code (R372). -/
def State.capShown (s : State) : Prop :=
  s.capSources[s.board.fld Pg.pwr F.pwrGlobalCapEffectiveSource]? = some (s.board.fld Pg.pwr F.pwrGlobalCapEffectiveW10) ∧
    s.board.fld Pg.pwr F.pwrGlobalCapEffectiveW10 ≠ 0 ∧ ∀ c ∈ s.capSources, c ≠ 0 → s.board.fld Pg.pwr F.pwrGlobalCapEffectiveW10 ≤ c

/-- A LINEAR11 word (5-bit exponent, 11-bit mantissa) whose value lies within half a step of n ÷ d. -/
def linNear (w n d : Nat) : Prop :=
  ∃ (m : Nat) (e : Int), m < 1024 ∧ -16 ≤ e ∧ e ≤ 15 ∧ w = codeOf 5 e * 2 ^ 11 + m ∧
    (0 ≤ e → 2 * m * 2 ^ e.toNat * d ≤ 2 * n + 2 ^ e.toNat * d ∧ 2 * n ≤ 2 * m * 2 ^ e.toNat * d + 2 ^ e.toNat * d) ∧
    (e < 0 → 2 * m * d ≤ 2 * n * 2 ^ (-e).toNat + d ∧ 2 * n * 2 ^ (-e).toNat ≤ 2 * m * d + d)

/-- The module answers a two-wire command: nothing changes but what it has sent. -/
def pmAnswers (c : Instr) (s : State) (code : Nat) (data : Bytes) : Prop :=
  exec c s = .next { s with board := { s.board with out := s.board.out ++ [.pmbus code false data] } }

/-! ### Management datagrams (R436, R437) -/

/-- A management datagram that the module handles: its length, MAGIC and rack index are right (R437). -/
abbrev State.datagram (s : State) (d : Bytes) (op : Nat) : Prop :=
  s.answers = true ∧ Mg.op d = op ∧ 96 ≤ d.length ∧ d.length = mgmtLen d ∧ leAt d 0 4 = 0x4D474D54 ∧ Mg.rack d = s.rack

/-- One whose MAC verifies and whose SEQ is above LAST_SEQ, so that its command is applied. -/
abbrev State.authentic (s : State) (d : Bytes) (op : Nat) : Prop :=
  s.datagram d op ∧ s.macOk d = true ∧ s.board.lastSeq < Mg.seq d

/-- The command of a datagram is answered: LAST_SEQ takes its SEQ, MGMT_APPLIED counts it when the STATUS is 0, and the answer goes to the
manager after `sent`. -/
def State.answered (s t : State) (d : Bytes) (status : Nat) (data : Bytes) (sent : List Out) : Prop :=
  t.board.lastSeq = Mg.seq d ∧ t.board.msgs = s.board.msgs ++ sent ++ [.mgmt (Mg.manager d) (Mg.op d) status (Mg.seq d) data] ∧
    t.board.cnt Pg.tel Cn.telMgmtApplied = (s.board.cnt Pg.tel Cn.telMgmtApplied + if status = 0 then 1 else 0) % 2 ^ 64

/-- The registers that hold LAST_SEQ, and the counter of applied commands. -/
def mgmtRegs : List (Nat × Nat) := [(Pg.tel, F.telMgmtSeqLoSeq.off), (Pg.tel, F.telMgmtSeqLoSeq.off + 4)]
def mgmtCnts : List (Nat × Nat) := [(Pg.tel, Cn.telMgmtApplied)]

/-! ### Memory commands (R188, R496) -/

/-- The owning link may give a memory command, none runs and none waits. -/
abbrev State.memReady (s : State) (l : Link) : Prop :=
  s.mayWrite l Pg.mem ∧ s.inService = true ∧ s.tier.cmdRun = none ∧ s.tier.cmdQ = []

/-- The command that the argument registers spell. -/
def State.memCmd (s : State) (op : Nat) : MemCmd :=
  ⟨op, s.board.fld Pg.mem (F.memCmdArgArg 0), s.board.fld Pg.mem (F.memCmdArgArg 1), s.board.fld Pg.mem (F.memCmdArgArg 2), s.board.fld Pg.mem (F.memCmdArgArg 3)⟩

/-- A memory command has completed with a cause: MEM.CMD_STATUS, CMD_DONE and CMD_FAILED; none runs. -/
def State.cmdEnded (s t : State) (op cause : Nat) : Prop :=
  t.board.fld Pg.mem F.memCmdStatusOp = op ∧ t.board.fld Pg.mem F.memCmdStatusCause = cause ∧ t.board.evBit Pg.mem F.memEventCmdDone.lsb = true ∧
    (cause ≠ 0 → t.board.evBit Pg.mem F.memEventCmdFailed.lsb = true) ∧
    (cause = 0 → t.board.evBit Pg.mem F.memEventCmdFailed.lsb = s.board.evBit Pg.mem F.memEventCmdFailed.lsb) ∧
    t.tier.cmdRun = none ∧ t.board.flag Pg.mem F.memStatusCmdBusy = false

/-- The registers of MEM that a command's completion writes. -/
def memRegs : List (Nat × Nat) := [(Pg.mem, 0x010), (Pg.mem, 0x114), (Pg.mem, 0x118)] ++ evs [Pg.mem]

/-! ### Contexts and operators (R136 to R170) -/

/-- The registers of context n: its configuration word, its block and its page's STATUS. -/
def ctxRegs (n : Nat) : List (Nat × Nat) :=
  (ctxPage n, 0x010) :: (List.range 15).map (fun i => (ctxPage n, 0x100 + 64 * (n % 16) + 4 * i))

/-- The registers and counters that the record of context n and an event on the lead page touch. -/
def recRegs (n : Nat) : List (Nat × Nat) := ctxRegs n ++ evs [ctxPage n, Pg.opq0]
def recCnts : List (Nat × Nat) := (Pg.opq0, Cn.opq0ErrorRecords) :: logCnts

/-- All counters of a page. -/
def pageCnts (p : Nat) : List (Nat × Nat) := (List.range 128).map (fun i => (p, 0x800 + 8 * i))

/-- The registers and counters of the cores of context n's partition that an operator's work touches (R94, R124). -/
def State.workRegs (s : State) (n : Nat) : List (Nat × Nat) :=
  (s.partCores (s.partOf n)).flatMap (fun c => [(Pg.core c, F.coreStatusQuarter.off), (Pg.spx c, F.spxStatusSparseActive.off)]) ++
    evs [Pg.spx (s.lead n)]
def State.workCnts (s : State) (n : Nat) : List (Nat × Nat) :=
  (s.partCores (s.partOf n)).flatMap (fun c => pageCnts (Pg.core c) ++ pageCnts (Pg.spx c)) ++ pageCnts (Pg.core (s.lead n)) ++
    pageCnts (Pg.spx (s.lead n)) ++ logCnts

/-- Beside the board, memory and the free values only context n changes. -/
def State.onlyCtx (s t : State) (n : Nat) : Prop :=
  (∀ m, m ≠ n → t.ctx m = s.ctx m) ∧ { t with board := s.board, ctxs := s.ctxs, mem := s.mem, freeCtr := s.freeCtr } = s

/-- The completion slot at WI of context n, and whether an address lies outside it. -/
def State.slotAt (s : State) (n : Nat) : Nat := s.cbase n + 64 * (s.wi n % s.csize n)
def State.offSlot (s : State) (n a : Nat) : Prop := a < s.slotAt n ∨ s.slotAt n + 64 ≤ a

/-- A record has been written in the slot at WI, as the next of its context: its bytes, WI, SEQ. -/
def State.recorded (s t : State) (n : Nat) (r : Rec) : Prop :=
  memRead t.mem (s.slotAt n) 64 = r.bytes ((s.ctx n).seq + 1) ∧ t.wi n = (s.wi n + 1) % 65536 ∧ (t.ctx n).seq = (s.ctx n).seq + 1

/-- The operator at CI of context n may start as `o`: its descriptor is there, `o` takes it, and no earlier operator holds it back (R137, R138). -/
abbrev State.mayStart (s : State) (o : OpDef) (n : Nat) (raw : Bytes) : Prop :=
  s.nextDesc n = some raw ∧ o.takes (Desc.ofBytes raw) = true ∧
    (s.live n).all (mayPass (Desc.ofBytes raw) o.alone ((s.coverAll n (Desc.ofBytes raw)).map (fun x => x.2.2))
      (((s.coverAll n (Desc.ofBytes raw)).filter (fun x => (o.outs (Desc.ofBytes raw)).contains x.1)).map (fun x => x.2.2))) = true

/-- The commands that start an operator which completes later, with what the catalogue gives each (R141 to R155). -/
def opCommands (n : Nat) : List (Instr × OpDef) :=
  [(.gemm n, gemmDef), (.gemmGrouped n, groupedDef), (.attn n, attnDef), (.elem n, elemDef), (.norm n, normDef), (.softmax n, softmaxDef),
   (.reduce n, reduceDef), (.gather n, gatherDef), (.scatterAdd n, scatterDef), (.moeDispatch n, moeDispatchDef), (.moeCombine n, moeCombineDef),
   (.quant n, quantDef), (.dequant n, dequantDef), (.relay n, relayDef), (.transpose n, transposeDef), (.sample n, sampleDef)]

/-- The commands whose operator completes at once (R156). -/
def quickCommands (n : Nat) : List (Instr × OpDef) :=
  [(.nop n, nopDef), (.step n, stepDef), (.migratePromote n, migDef 0), (.migrateDemote n, migDef 1), (.migrateSeal n, migDef 2)]

/-! ### The layer feed and the hatband (R228 to R312) -/

/-- What `t` has sent, and its hatband, are those of `u`: the messages that `u` has sent go out, and no others. -/
def State.sendsAs (t u : State) : Prop := t.net = u.net ∧ t.board.msgs = u.board.msgs

/-- The counters that sending a message touches. -/
def netCnts : List (Nat × Nat) :=
  (List.range 48).flatMap (fun e => pageCnts (Pg.hb e)) ++ (List.range 12).flatMap (fun g => pageCnts (Pg.nol g))

/-- Of the feeds only that of partition p changes. -/
def State.onlyFeed (s t : State) (p : Nat) : Prop := ∀ q, q ≠ p → t.feed q = s.feed q

/-- Of the feeds only batt k of partition p changes. -/
def State.onlyBatt (s t : State) (p k : Nat) : Prop :=
  (∀ j, j ≠ k → (t.feed p).batt j = (s.feed p).batt j) ∧ { t.feed p with batts := (s.feed p).batts } = s.feed p ∧ s.onlyFeed t p

/-- REQ number n for an entry of the fill layer goes to its mirror, and in turn to its primary (R236, R249). -/
def State.requested (s t : State) (p n : Nat) (pl : Plan) (e : Entry) : Prop :=
  t.sendsAs (s.sendServer (if n % 2 = 1 then e.mGroup else e.pGroup) 1 (battBody 2 pl.ctx n 0 (s.feed p).fillStep e.layer e.shard e.id s.rack)) ∧
    t.board.cnt Pg.crdGlobal Cn.crdGlobalReqsSent = (s.board.cnt Pg.crdGlobal Cn.crdGlobalReqsSent + 1) % 2 ^ 64

/-! ### Trees (R256 to R280) -/

/-- The registers that show tree n: FUL.STATUS, TREE_STATE, TREE_STEP and TREE_LOWEST. -/
def treeRegs (n : Nat) : List (Nat × Nat) := (treePage n, 0x010) :: [0x10C, 0x130, 0x134].map (fun o => (treePage n, o + 64 * treeSlot n))

/-- Of the trees only tree n changes. -/
def State.onlyTree (s t : State) (n : Nat) : Prop := ∀ m, m ≠ n → t.tree m = s.tree m

/-- A FULL message of a kind reaches the tree it names, which knows its sender: child i − 1, or 0 for the parent (R270, checks 1 and 2). -/
abbrev State.admits (s : State) (g : Nat) (body : Bytes) (kind n i : Nat) : Prop :=
  s.quiet = false ∧ roleTakes (s.board.groupRole g) 3 = true ∧ s.sessionUp g = true ∧ 32 ≤ body.length ∧ (FullHdr.ofBytes body).kind = kind ∧
    (FullHdr.ofBytes body).tree = n ∧ s.inService = true ∧ s.tOn n = true ∧ s.tSender n (FullHdr.ofBytes body) = some i

/-- It names the open invocation, and its E and ELEMENTS are that one's (R270, checks 3 and 4). -/
abbrev State.ofOpen (s : State) (body : Bytes) (n : Nat) : Prop :=
  (s.tree n).named (FullHdr.ofBytes body).step (FullHdr.ofBytes body).attempt = 1 ∧ (s.tree n).dead = false ∧ (s.tree n).e = (FullHdr.ofBytes body).e ∧
    (s.tree n).elements = (FullHdr.ofBytes body).elements

/-- Segment k of the open invocation may go: it is complete, and within the window and the parent's WIN (R264, R265). -/
def State.mayGo (s : State) (n k : Nat) : Prop :=
  k < (s.tree n).nseg ∧ k < (s.tree n).released + s.tWindow n ∧ s.tComplete n k = true ∧ (s.tRoot n = true ∨ k < (s.tree n).winParent)

/-- Tree n has gone on from where it stood, in ascending order, to the first segment that may not go. -/
def State.wentOn (s t : State) (n : Nat) : Prop :=
  (s.tree n).up ≤ (t.tree n).up ∧ (∀ j, (s.tree n).up ≤ j → j < (t.tree n).up → t.mayGo n j) ∧ ¬ t.mayGo n (t.tree n).up

/-- The sums that tree n holds for segment k. -/
def Tree.sumsOf (t : Tree) (k : Nat) : Option (List Int) := (t.sums.find? (fun x => x.1 == k)).map Prod.snd

/-- Contributor i has delivered segment k as `vs`: it is added exactly, every segment that may go has gone, and nothing else of the invocation
changes (R263, R264). -/
def State.added (s t : State) (n i k : Nat) (vs : List Int) : Prop :=
  let u := s.tree n
  let v := t.tree n
  (v.con i).segs = (u.con i).segs ++ [k] ∧ (∀ j, j ≠ i → v.con j = u.con j) ∧
    v.sumsOf k = some ((u.sumsOf k).elim vs (fun o => (o.zip vs).map (fun p => p.1 + p.2))) ∧ (∀ j, j ≠ k → v.sumsOf j = u.sumsOf j) ∧
    s.wentOn t n ∧ v.isOpen = true ∧ v.released = u.released ∧ v.step = u.step ∧ v.attempt = u.attempt ∧ v.e = u.e ∧ v.elements = u.elements ∧
    v.winParent = u.winParent ∧ v.down = u.down ∧ v.dead = false

/-- What leaves tree n as it goes on by at most one segment: its clamped sums, to the parent, or from the top of a KIND 1 tree into T1
and to every child (R257, R263). -/
def State.oneWent (s t : State) (n : Nat) : Prop :=
  let k := (s.tree n).up
  let vs := (((t.tree n).sumsOf k).getD []).map (fun x => (clampSum x).1)
  ((t.tree n).up = k → t.sendsAs s ∧ t.mem = s.mem) ∧
    ((t.tree n).up = k + 1 → s.tAll n = true → s.tRoot n = true →
      t.mem = (s.tDeliver n k vs).mem ∧ t.sendsAs ((List.range (s.tKids n)).foldl (fun s c => s.sendSums n 4 k (s.tChild n c).2 vs true) s)) ∧
    ((t.tree n).up = k + 1 → (s.tAll n && s.tRoot n) = false →
      t.mem = s.mem ∧ t.sendsAs (s.sendSums n 1 k (s.tParent n).2 vs (decide (1 < (s.tIds n).length) || (t.tree n).wide.contains k)))

/-- Beside tree n, memory, what is sent, its page and the counters of sending, nothing changes. -/
def State.onlyTreeWork (s t : State) (n : Nat) : Prop :=
  s.onlyTree t n ∧ { t with board := s.board, trees := s.trees, net := s.net, mem := s.mem, freeCtr := s.freeCtr } = s ∧
    ∃ sent, s.board.Keeps t.board (treeRegs n ++ evs [treePage n]) (pageCnts (treePage n) ++ netCnts ++ logCnts) sent

/-! ### Engines and groups (R281 to R312) -/

/-- Of the hatband only engine e changes. -/
def State.onlyEngine (s t : State) (e : Nat) : Prop :=
  (∀ o, o ≠ e → t.engine o = s.engine o) ∧ { t.net with engines := s.net.engines } = s.net

/-- Nothing but vectors has been sent since `s`. -/
def State.sendsNone (t s : State) : Prop := t.board.msgs = s.board.msgs

/-- The rows that a message with a class and a SUBKIND acts as (R300, R336). -/
def messageRows (g : Nat) (body : Bytes) (gtc : Nat) : List (Nat × Nat × Instr) :=
  [(0, 0x01, .sync g body gtc), (0, 0x02, .delayReq g body), (0, 0x03, .delayResp g body), (0, 0x04, .arrive g body), (0, 0x05, .release g body),
   (0, 0x06, .abort g body), (1, 0x02, .accept g body), (1, 0x03, .refuse g body), (1, 0x04, .close g), (1, 0x05, .farLoop g body), (1, 0x10, .remap g body),
   (1, 0x11, .slowReport g body), (1, 0x12, .swapReq g body), (1, 0x13, .swapAccept g body), (1, 0x14, .swapRefuse g body), (1, 0x15, .swapCommit g body),
   (1, 0x16, .crownAnnounce g body), (1, 0x20, .battFailureNotice g body), (1, 0x21, .missingContributorNotice g body), (2, 3, .rdata g body), (4, 0, .peerMessage g body)] ++
  ([Instr.seg g body, .endMsg g body, .win g body, .down g body, .downEnd g body][(FullHdr.ofBytes body).kind - 1]?).toList.map (fun c => (3, 0, c))

/-! ### The crown (R329 to R344) -/

/-- A message of a class from group g takes effect (R286, R307). -/
abbrev State.hears (s : State) (g cls : Nat) : Prop := (cls = 1 ∨ s.quiet = false ∧ s.sessionUp g = true) ∧ roleTakes (s.board.groupRole g) cls = true

/-- `t` has sent the messages that `u` has. -/
def State.saysAs (t u : State) : Prop := t.board.msgs = u.board.msgs

/-- Beside TK's, ROLE's and the log's registers, the crown's part and what is sent, nothing changes. -/
def State.onlyCrown (s t : State) : Prop :=
  { t with board := s.board, crown := s.crown, net := s.net, freeCtr := s.freeCtr } = s ∧
    ∃ sent, ({ s.board with gtc := t.board.gtc } : Board).Keeps t.board
      ([Pg.tk, Pg.role].flatMap (fun p => [(p, 0x010), (p, 0x108), (p, 0x10C), (p, 0x110), (p, 0x114), (p, 0x118), (p, 0x11C), (p, 0x120)]) ++ evs [Pg.tk, Pg.role])
      (pageCnts Pg.tk ++ pageCnts Pg.role ++ netCnts ++ logCnts) sent

/-- The crown has decided to abort a step for a reason (R338): once for a STEP and ATTEMPT, effective at the first grid point at least two one-way
bounds ahead, with ABORT down the control tree. -/
def State.decided (s t : State) (step reason : Nat) : Prop :=
  let att := (s.attemptOf step + 1) % 256
  let a := s.gridAt (s.board.gtc + 2 * s.oneWay)
  (s.crown.aborts.any (fun x => x.step == step && x.attempt == att) = false → t.crown.aborts = s.crown.aborts ++ [(⟨step, att, reason, a⟩ : Abort)] ∧
    t.saysAs (s.toChildren 0 0x06 (bodyOf 32 [(0, 4, step), (4, 1, att), (5, 1, reason), (8, 8, a)]))) ∧
  (s.crown.aborts.any (fun x => x.step == step && x.attempt == att) = true → t.crown.aborts = s.crown.aborts ∧ t.saysAs s)

/-! ### Checksums (R50, R290) -/

/-- The low n bits of a number in the opposite order. -/
def mirrored (n v : Nat) : Nat := ((List.range n).map (fun i => if v.testBit i then 2 ^ (n - 1 - i) else 0)).sum

/-- One shift of a w-bit CRC register, highest power first: the polynomial goes in when a 1 leaves. -/
def crcShift (w poly r : Nat) : Nat := if r.testBit (w - 1) then (2 * r) % 2 ^ w ^^^ poly else 2 * r

/-- A w-bit CRC by its published parameters, initial value and final XOR all ones, input and output mirrored. -/
def crcOf (w poly : Nat) (bs : Bytes) : Nat :=
  mirrored w (bs.foldl (fun r b => (List.range 8).foldl (fun r _ => crcShift w poly r) (r ^^^ mirrored 8 b.toNat * 2 ^ (w - 8))) (2 ^ w - 1)) ^^^ (2 ^ w - 1)

end Sys2Proof.Machine
end

