-- ==== Sys2Proof/Certificates/Slice0/Obligations.lean ====
section
/-! DEFINITION. The statements: what the commands, the step and the state after reset do, by the rules of spec/. -/
open Sys2Proof Sys2Proof.Machine

/-! ### Power, hold-up and cooling (13_power_and_cooling) -/

/-- R375: a two-wire read answers in its format and changes nothing else; CLEAR_FAULTS clears the latched status bits; a command code outside the table is NACKed and counted in the MOD page. -/
def Obligations.TwoWireReadsAnswer : Prop :=
  (∀ s : State, s.answers = true →
    pmAnswers .pmbusRevision s 0x98 [0x33] ∧ pmAnswers .mfrId s 0x99 [3, 0x47, 0x42, 0x43] ∧
    pmAnswers (.mfrPowerCap none) s 0xD0 (toLE 2 (s.board.fld Pg.pwr F.pwrGlobalCapPmbusW10)) ∧
    (∃ w, pmAnswers .readVin s 0x88 (toLE 2 w) ∧ linNear w (s.board.fld Pg.pwr F.pwrGlobalInputVin10mv) 100) ∧
    (∃ w, pmAnswers .readPin s 0x97 (toLE 2 w) ∧ linNear w (10 * s.board.fld Pg.pwr F.pwrGlobalInputPowerW10) 1) ∧
    (∃ w, pmAnswers .readTemperature1 s 0x8D (toLE 2 w) ∧ linNear w (s.board.fld Pg.thm F.thmCoolantInlet) 10) ∧
    (1000 * s.board.fld Pg.pwr F.pwrGlobalInputPowerW10 ≤ 1023 * 2 ^ 15 * s.board.fld Pg.pwr F.pwrGlobalInputVin10mv →
      0 < s.board.fld Pg.pwr F.pwrGlobalInputVin10mv →
      ∃ w, pmAnswers .readIin s 0x89 (toLE 2 w) ∧
        linNear w (1000 * s.board.fld Pg.pwr F.pwrGlobalInputPowerW10) (s.board.fld Pg.pwr F.pwrGlobalInputVin10mv)) ∧
    (∃ w, pmAnswers .statusWord s 0x79 (toLE 2 w) ∧
      (s.board.flag Pg.pwr F.pwrGlobalStatusInputLow = true → w.testBit 3 = true) ∧
      (s.board.flag Pg.pwr F.pwrGlobalStatusCapUnmet = true → w.testBit 5 = true) ∧
      (s.board.flag Pg.thm F.thmStatusInletHigh = true → w.testBit 2 = true) ∧
      (s.pwr.pmStatus = 0 → w % 4 = 0 ∧ w.testBit 4 = false ∧ w < 64))) ∧
  (∀ s : State, s.answers = true →
    Completes .clearFaults s (fun t => t.pwr.pmStatus = 0 ∧ t.board.out = s.board.out ++ [.pmbus 0x03 false []] ∧
      { t with board := { t.board with out := s.board.out }, pwr := { t.pwr with pmStatus := s.pwr.pmStatus } } = s) ∧
    ∀ code, code < 256 → code ∉ pmbusCodes →
      Completes (.pmbusNack code) s (fun t => t.board.fld Pg.mod F.modPmbusLastCode = code ∧
        t.board.cnt Pg.mod Cn.modPmbusNacks = (s.board.cnt Pg.mod Cn.modPmbusNacks + 1) % 2 ^ 64 ∧
        t.board.evBit Pg.mod F.modEventPmbusNack.lsb = true ∧ { t with board := s.board } = s ∧
        s.board.Keeps t.board ((Pg.mod, F.modPmbusLastCode.off) :: evs [Pg.mod]) ((Pg.mod, Cn.modPmbusNacks) :: logCnts)
          [.pmbus code true []]))


/-- R372, R374, R379, R383: a cap that arrives, a low input and a hot or slow coolant loop set their cap source, and the effective cap
is then the lowest nonzero source, with its code. Nothing changes beside the named registers, the events and the caps themselves. -/
def Obligations.CapsTakeTheLowest : Prop :=
  ∀ s : State, s.board.flag Pg.pwr F.pwrGlobalStatusFlushing = false →
    (∀ l (v : Word), s.mayWrite l Pg.pwr →
      Completes (.capLocal l v) s (fun t => t.board.fld Pg.pwr F.pwrGlobalCapLocalW10 = v.toNat % 2 ^ 16 ∧ t.capShown ∧
        { t with board := s.board } = s ∧
        s.board.Keeps t.board ((Pg.pwr, 0x100) :: (Pg.pwr, 0x10C) :: evs [Pg.pwr] ++ hostRegs) ((Pg.pwr, Cn.pwrGlobalCapChanges) :: hostCnts) [])) ∧
    (∀ v, s.answers = true → v < 2 ^ 16 →
      Completes (.mfrPowerCap (some v)) s (fun t => t.board.fld Pg.pwr F.pwrGlobalCapPmbusW10 = v ∧ t.capShown ∧
        { t with board := s.board } = s ∧
        s.board.Keeps t.board ((Pg.pwr, 0x108) :: (Pg.pwr, 0x10C) :: evs [Pg.pwr]) ((Pg.pwr, Cn.pwrGlobalCapChanges) :: logCnts)
          [.pmbus 0xD0 false []])) ∧
    (s.board.st ≠ St.off →
      (∀ v, 4200 ≤ v → v ≤ 4600 →
        Completes (.inputLow v) s (fun t => t.board.flag Pg.pwr F.pwrGlobalStatusInputLow = true ∧ t.pwr.capUnder = 600 * v / 1000 ∧
          t.board.evBit Pg.pwr F.pwrGlobalEventInputLow.lsb = true ∧ t.pwr.pmStatus.testBit 3 = true ∧ t.capShown ∧
          { t with board := s.board, pwr := { t.pwr with pmStatus := s.pwr.pmStatus, capUnder := s.pwr.capUnder } } = s ∧
          s.board.Keeps t.board ((Pg.pwr, 0x010) :: (Pg.pwr, 0x10C) :: (Pg.pwr, 0x114) :: evs [Pg.pwr]) ((Pg.pwr, Cn.pwrGlobalCapChanges) :: logCnts) [])) ∧
      (∀ v, 4600 < v → v < 2 ^ 16 →
        Completes (.inputLowClear v) s (fun t => t.board.flag Pg.pwr F.pwrGlobalStatusInputLow = false ∧ t.pwr.capUnder = 0 ∧ t.capShown ∧
          { t with board := s.board, pwr := { t.pwr with capUnder := s.pwr.capUnder } } = s ∧
          s.board.Keeps t.board ((Pg.pwr, 0x010) :: (Pg.pwr, 0x10C) :: (Pg.pwr, 0x114) :: evs [Pg.pwr]) ((Pg.pwr, Cn.pwrGlobalCapChanges) :: logCnts) [])) ∧
      (∀ inlet flow, (450 < inlet ∨ flow < 550) →
        Completes (.inletHigh inlet flow) s (fun t => t.pwr.capThermal = fuseCap s.store.variant * 4 / 5 ∧ t.capShown ∧
          t.pwr.pmStatus.testBit 2 = true ∧ (450 < inlet → t.board.evBit Pg.thm F.thmEventInletHigh.lsb = true) ∧
          (flow < 550 → t.board.evBit Pg.thm F.thmEventFlowLow.lsb = true) ∧
          { t with board := s.board, pwr := { t.pwr with pmStatus := s.pwr.pmStatus, capThermal := s.pwr.capThermal } } = s ∧
          s.board.Keeps t.board ((Pg.thm, 0x010) :: (Pg.thm, 0x104) :: (Pg.thm, 0x108) :: (Pg.pwr, 0x10C) :: evs [Pg.pwr, Pg.thm])
            ((Pg.pwr, Cn.pwrGlobalCapChanges) :: logCnts) [])) ∧
      Completes .thermalCapClear s (fun t => t.pwr.capThermal = 0 ∧ t.capShown ∧ t.board.flag Pg.thm F.thmStatusInletHigh = false ∧
        t.board.flag Pg.thm F.thmStatusFlowLow = false ∧
        { t with board := s.board, pwr := { t.pwr with capThermal := s.pwr.capThermal } } = s ∧
        s.board.Keeps t.board ((Pg.thm, 0x010) :: (Pg.pwr, 0x10C) :: evs [Pg.pwr]) ((Pg.pwr, Cn.pwrGlobalCapChanges) :: logCnts) []))

/-- R370, R371, R384: a VCORE phase that opens, a phase whose current sense fails, an over-current and a sweatband drop are shown,
counted, logged and limit their tile as the table says; a third open phase switches the tile's four core domains off. -/
def Obligations.TilePowerFaultsLimitTheTile : Prop :=
  ∀ (s : State) (t i : Nat), s.alive = true → t < 24 → i < 20 →
    (s.board.phase t i ≠ 1 → s.board.coreOpen t < 2 → s.store.logCount + 1 < logMax →
      Completes (.openPhase t i) s (fun u => u.board.phase t i = 1 ∧ u.board.coreOpen t = s.board.coreOpen t + 1 ∧
        u.board.cnt (Pg.pwrTile t) Cn.pwrTileOpenPhases = (s.board.cnt (Pg.pwrTile t) Cn.pwrTileOpenPhases + 1) % 2 ^ 64 ∧
        u.board.evBit (Pg.pwrTile t) F.pwrTileEventOpenPhase.lsb = true ∧
        (s.board.coreOpen t = 1 → u.board.fld (Pg.pwrTile t) F.pwrTileStatusLimit = 2 ∧ u.board.fld (Pg.pwrTile t) F.pwrTileLimitAAmps = 650) ∧
        u.store = { s.store with fieldStaged := s.store.fieldStaged ++ [⟨9, 4, t, i + 2 ^ 16, s.store.lifeBringups⟩] } ∧
        { u with board := s.board, store := s.store, bup := { u.bup with sinceMerge := s.bup.sinceMerge } } = s ∧
        s.board.Keeps u.board ((Pg.pwrTile t, 0x010) :: (Pg.pwrTile t, 0x180) :: (Pg.pwrTile t, 0x100 + 4 * i) :: (Pg.fus, F.fusFieldEntriesCount.off) ::
          evs [Pg.pwrTile t, Pg.fus]) ((Pg.pwrTile t, Cn.pwrTileOpenPhases) :: (Pg.fus, Cn.fusFieldAppends) :: logCnts) [])) ∧
    (s.board.phase t i ≠ 1 → s.board.coreOpen t = 2 →
      Completes (.openPhase t i) s (fun u => u.board.fld (Pg.pwrTile t) F.pwrTileStatusLimit = 3 ∧ u.board.fld (Pg.pwrTile t) F.pwrTileLimitAAmps = 0 ∧
        u.board.evBit (Pg.pwrTile t) F.pwrTileEventTileOff.lsb = true ∧ (∀ k < 4, 28 + 4 * t + k ∉ u.board.on) ∧
        (s.board.st = St.service → u.board.st = St.held))) ∧
    (s.board.phase t i = 0 → s.board.coreOpen t < 2 → s.store.logCount + 1 < logMax →
      Completes (.senseFail t i) s (fun u => u.board.phase t i = 2 ∧
        u.board.cnt (Pg.pwrTile t) Cn.pwrTileSenseFails = (s.board.cnt (Pg.pwrTile t) Cn.pwrTileSenseFails + 1) % 2 ^ 64 ∧
        u.board.evBit (Pg.pwrTile t) F.pwrTileEventSenseFail.lsb = true ∧ u.board.fld (Pg.pwrTile t) F.pwrTileStatusEstimated = 1 ∧
        u.board.fld (Pg.pwrTile t) F.pwrTileStatusLimit = 1 ∧ u.board.fld (Pg.pwrTile t) F.pwrTileLimitAAmps = 1105 ∧
        u.store = { s.store with fieldStaged := s.store.fieldStaged ++ [⟨9, 4, t, i + 2 ^ 17, s.store.lifeBringups⟩] } ∧
        { u with board := s.board, store := s.store, bup := { u.bup with sinceMerge := s.bup.sinceMerge } } = s ∧
        s.board.Keeps u.board ((Pg.pwrTile t, 0x010) :: (Pg.pwrTile t, 0x180) :: (Pg.pwrTile t, 0x100 + 4 * i) :: (Pg.fus, F.fusFieldEntriesCount.off) ::
          evs [Pg.pwrTile t, Pg.fus]) ((Pg.pwrTile t, Cn.pwrTileSenseFails) :: (Pg.fus, Cn.fusFieldAppends) :: logCnts) [])) ∧
    (∀ n, 0 < n →
      Completes (.ocGate t n) s (fun u =>
        u.board.cnt (Pg.pwrTile t) Cn.pwrTileOcGatePeriods = (s.board.cnt (Pg.pwrTile t) Cn.pwrTileOcGatePeriods + n) % 2 ^ 64 ∧
        u.board.evBit (Pg.pwrTile t) F.pwrTileEventOcGate.lsb = true ∧ { u with board := s.board } = s ∧
        s.board.Keeps u.board (evs [Pg.pwrTile t]) ((Pg.pwrTile t, Cn.pwrTileOcGatePeriods) :: logCnts) [])) ∧
    (∀ mv, 25 < mv → mv < 256 → t ∉ s.pwr.sweatTiles → s.board.coreOpen t < 2 → s.store.logCount + 1 < logMax →
      Completes (.sweatDrop t mv) s (fun u => u.board.fld (Pg.pwrTile t) F.pwrTileSweatDropMv = mv ∧
        u.board.evBit (Pg.pwrTile t) F.pwrTileEventSweatDrop.lsb = true ∧ t ∈ u.pwr.sweatTiles ∧
        u.board.fld (Pg.pwrTile t) F.pwrTileStatusLimit = 1 ∧ u.board.fld (Pg.pwrTile t) F.pwrTileLimitAAmps = 1105 ∧
        { u with board := s.board, store := s.store, bup := { u.bup with sinceMerge := s.bup.sinceMerge },
                 pwr := { u.pwr with sweatTiles := s.pwr.sweatTiles } } = s)) ∧
    (∀ mv, mv ≤ 25 →
      Completes (.sweatDrop t mv) s (fun u => u.board.fld (Pg.pwrTile t) F.pwrTileSweatDropMv = mv ∧ { u with board := s.board } = s ∧
        s.board.Keeps u.board [(Pg.pwrTile t, 0x184)] [] []))

/-- R379, R380, R376, R391: an input loss starts a ride-through; an input that returns in time ends it with INPUT_DIP; else the flush
plan switches every domain but the shelf's off and ends in STANDBY or OFF with LAST_OFF = 2, the staged log programmed. EPO ends in OFF
at once with LAST_OFF = 3, and what was staged is lost. At the next power-on LAST_OFF reads what the power board latched. -/
def Obligations.InputLossFlushAndEpo : Prop :=
  ∀ s : State,
    (s.board.st ≠ St.off → ∀ v, v < 4200 →
      Completes (.inputLoss v) s (fun t => t.board.flag Pg.pwr F.pwrGlobalStatusRideThrough = true ∧ t.pwr.present = false ∧
        t.board.fld Pg.pwr F.pwrGlobalInputVin10mv = v ∧ { t with board := s.board, pwr := { t.pwr with present := s.pwr.present } } = s ∧
        s.board.Keeps t.board [(Pg.pwr, 0x010), (Pg.pwr, 0x114)] [] [] ∧ s.board.Silent t.board)) ∧
    (s.board.flag Pg.pwr F.pwrGlobalStatusRideThrough = true → s.board.flag Pg.pwr F.pwrGlobalStatusFlushing = false → ∀ v, 4400 < v →
      Completes (.inputDip v) s (fun t => t.board.flag Pg.pwr F.pwrGlobalStatusRideThrough = false ∧ t.pwr.present = true ∧
        t.board.evBit Pg.pwr F.pwrGlobalEventInputDip.lsb = true ∧
        t.board.cnt Pg.pwr Cn.pwrGlobalInputDips = (s.board.cnt Pg.pwr Cn.pwrGlobalInputDips + 1) % 2 ^ 64 ∧
        { t with board := s.board, pwr := { t.pwr with present := s.pwr.present } } = s ∧
        s.board.Keeps t.board ((Pg.pwr, 0x010) :: (Pg.pwr, 0x114) :: evs [Pg.pwr]) ((Pg.pwr, Cn.pwrGlobalInputDips) :: logCnts) [])) ∧
    (s.board.flag Pg.pwr F.pwrGlobalStatusRideThrough = true → s.board.flag Pg.pwr F.pwrGlobalStatusFlushing = false → s.board.st ≠ St.off →
      Completes .flushStart s (fun t => t.board.flag Pg.pwr F.pwrGlobalStatusFlushing = true ∧
        t.board.evBit Pg.pwr F.pwrGlobalEventInputLoss.lsb = true ∧ (∀ d < 128, d ≠ 3 → d ∉ t.board.on) ∧
        (3 ∈ s.board.on → 3 ∈ t.board.on) ∧ t.board.st = s.board.st)) ∧
    (s.board.flag Pg.pwr F.pwrGlobalStatusFlushing = true → ∀ back,
      Completes (.flushComplete back) s (fun t => t.board.st = (if back then St.standby else St.off) ∧
        t.board.flag Pg.pwr F.pwrGlobalStatusFlushing = false ∧ t.board.flag Pg.pwr F.pwrGlobalStatusRideThrough = false ∧
        t.board.fld Pg.pwr F.pwrGlobalStatusLastOff = 2 ∧ t.store.lastOff = 2 ∧ (∀ d < 128, d ∉ t.board.on) ∧
        t.store.fieldLog = s.store.fieldLog ++ s.store.fieldStaged ∧ t.store.fieldStaged = [])) ∧
    (s.board.st ≠ St.off →
      Completes .epo s (fun t => t.board.st = St.off ∧ t.store.lastOff = 3 ∧ t.board.on = [] ∧ t.board.toShelf = [] ∧
        t.store.fieldStaged = [] ∧ t.store.fieldLog = s.store.fieldLog ∧ t.board.shelfLog = s.board.shelfLog ∧ t.board.msgs = s.board.msgs)) ∧
    (s.board.st = St.off → s.store.lastOff < 4 → ∀ v,
      Completes (.powerPresent v) s (fun t => t.board.st = St.standby ∧ t.board.fld Pg.pwr F.pwrGlobalStatusLastOff = s.store.lastOff ∧
        t.board.evBit Pg.pwr F.pwrGlobalEventInputLoss.lsb = decide (s.store.lastOff = 2) ∧
        t.board.fld Pg.pwr F.pwrGlobalCapEffectiveW10 = fuseCap s.store.variant ∧ t.board.on = [] ∧ t.store = s.store ∧
        t.board.shelfLog = s.board.shelfLog))

/-- R383: a junction at or above WARN is shown, warned of and limits its tile; it stops when every sensor is below WARN − 3 °C; a failed
sensor reads as another one plus 5 °C; a thermal trip switches the core domains off. -/
def Obligations.JunctionsWarnAndTrip : Prop :=
  ∀ s : State,
    (s.board.st ≠ St.off → ∀ t, t < 24 → ∀ c, c < 256 →
      (s.board.fld Pg.thm F.thmLimitsWarnC ≤ c →
        Completes (.junctionWarn t c) s (fun u => u.board.fld Pg.thm (F.thmTileMaxC t) = c ∧ u.board.flag Pg.thm F.thmStatusWarnAny = true ∧
          Tbl.get (fun _ => false) u.pwr.warnTile t = true ∧
          (Tbl.get (fun _ => false) s.pwr.warnTile t = false → u.board.evBit Pg.thm F.thmEventJunctionWarn.lsb = true) ∧
          { u with board := s.board, pwr := { u.pwr with warnTile := s.pwr.warnTile, pmStatus := s.pwr.pmStatus } } = s ∧
          s.board.Keeps u.board ((Pg.thm, 0x010) :: (Pg.thm, 0x110 + 4 * t) :: evs [Pg.thm]) logCnts [])) ∧
      (c + 3 < s.board.fld Pg.thm F.thmLimitsWarnC →
        Completes (.junctionWarn t c) s (fun u => u.board.fld Pg.thm (F.thmTileMaxC t) = c ∧ Tbl.get (fun _ => false) u.pwr.warnTile t = false ∧
          { u with board := s.board, pwr := { u.pwr with warnTile := s.pwr.warnTile } } = s ∧
          s.board.Keeps u.board [(Pg.thm, 0x010), (Pg.thm, 0x110 + 4 * t)] [] []))) ∧
    (s.board.st ≠ St.off → ∀ t, t < 24 → ∀ c, c + 5 < 256 →
      Completes (.sensorFail t c) s (fun u => u.board.fld Pg.thm (F.thmTileMaxC t) = max (s.board.fld Pg.thm (F.thmTileMaxC t)) (c + 5) ∧
        u.board.evBit Pg.thm F.thmEventSensorFail.lsb = true ∧
        { u with board := s.board, pwr := { u.pwr with warnTile := s.pwr.warnTile, pmStatus := s.pwr.pmStatus } } = s ∧
        s.board.Keeps u.board ((Pg.thm, 0x010) :: (Pg.thm, 0x110 + 4 * t) :: evs [Pg.thm]) logCnts [])) ∧
    (s.alive = true → s.board.flag Pg.thm F.thmStatusTripped = false →
      Completes .thermalTrip s (fun t => t.board.flag Pg.thm F.thmStatusTripped = true ∧ t.board.evBit Pg.thm F.thmEventTrip.lsb = true ∧
        t.board.cnt Pg.thm Cn.thmTrips = (s.board.cnt Pg.thm Cn.thmTrips + 1) % 2 ^ 64 ∧
        (∀ c < 96, 28 + c ∉ t.board.on))) ∧
    (s.alive = true → s.pwr.capGate = false →
      s.board.fld Pg.pwr F.pwrGlobalCapEffectiveW10 < s.board.fld Pg.pwr F.pwrGlobalInputPowerW10 →
      Completes .capGateDeadline s (fun t => t.pwr.capGate = true ∧ (∀ i < 24, t.board.evBit (Pg.pwrTile i) F.pwrTileEventOcGate.lsb = true) ∧
        { t with board := s.board, pwr := { t.pwr with capGate := false }, freeCtr := s.freeCtr } = s ∧
        s.board.Keeps t.board (evs ((List.range 24).map Pg.pwrTile)) ((List.range 24).map (fun i => (Pg.pwrTile i, Cn.pwrTileOcGatePeriods)) ++ logCnts) []))

/-- R377, R378: a gauge sample shows both estimates in whole joules, sets HOLDUP_READY while the lower one is at least the reserve, and
flags a mismatch of more than 10 % once the bank has been full. The status clears after 1,000 samples within 10 %. -/
def Obligations.GaugesAreCompared : Prop :=
  ∀ (s : State) (v drawn cap : Nat), s.board.st ≠ St.off → s.board.st ≠ St.standby → v ≤ 4800 → cap ≤ 2000 →
    let ev := cap * (v * v - 3600 * 3600)
    let full := s.pwr.wasFull || decide (v = 4800)
    let ec := if full then cap * (4800 * 4800 - 3600 * 3600) - drawn * 20000000 else ev
    Completes (.gaugeSample v drawn cap) s (fun t =>
      t.board.fld Pg.pwr F.pwrGlobalHoldupGaugeEVolt = ev / 20000000 ∧ t.board.fld Pg.pwr F.pwrGlobalHoldupGaugeECoul = ec / 20000000 ∧
      t.board.fld Pg.pwr F.pwrGlobalHoldupStateVbank10mv = v ∧ t.board.fld Pg.pwr F.pwrGlobalHoldupStateCapMf = cap ∧
      t.board.flag Pg.pwr F.pwrGlobalStatusHoldupReady = decide (s.board.fld Pg.pwr F.pwrGlobalHoldupCfgReserve * 200000000 ≤ min ev ec) ∧
      (full = true → max ev ec < 10 * (max ev ec - min ev ec) →
        t.board.flag Pg.pwr F.pwrGlobalStatusHoldupGaugeMismatch = true ∧ t.board.evBit Pg.pwr F.pwrGlobalEventGaugeMismatch.lsb = true ∧
          t.pwr.gaugeGood = 0) ∧
      (10 * (max ev ec - min ev ec) ≤ max ev ec → t.pwr.gaugeGood = s.pwr.gaugeGood + 1 ∧
        (999 ≤ s.pwr.gaugeGood → t.board.flag Pg.pwr F.pwrGlobalStatusHoldupGaugeMismatch = false)) ∧
      { t with board := s.board, pwr := { t.pwr with wasFull := s.pwr.wasFull, gaugeGood := s.pwr.gaugeGood } } = s ∧
      s.board.Keeps t.board ((Pg.pwr, 0x010) :: (Pg.pwr, 0x11C) :: (Pg.pwr, 0x120) :: evs [Pg.pwr]) ((Pg.pwr, Cn.pwrGlobalGaugeMismatches) :: logCnts) [])

/-! ### Clocks and crossings (12_clocks_and_crossings) -/

/-- R352, R323, R393: the mesh locks within 100 ms and every GTC copy starts at 0; later than that, on a lost lock or on a phase error above
100 ps, LOCK_LOST is set and the module is FAULTED. An error above 25 ps sets PHASE_LIMIT alone. -/
def Obligations.MeshLocksAndFails : Prop :=
  ∀ s : State,
    (s.board.st = St.calibrating → s.board.meshLocked = false →
      (∀ us, us ≤ 100000 → Completes (.meshLock us) s (fun t => t.board.meshLocked = true ∧ t.board.gtc = 0 ∧ t.board.fld Pg.clk F.clkLockTimeUs = us ∧
        t.clk = { s.clk with stepEnd := 0 } ∧ { t with board := s.board, clk := s.clk } = s ∧
        s.board.Keeps { t.board with gtc := s.board.gtc } [(Pg.clk, 0x010), (Pg.clk, 0x10C), (Pg.clk, 0x110), (Pg.clk, 0x114)] [] [] ∧ s.board.Silent t.board)) ∧
      (∀ us, 100000 < us → Completes (.meshLock us) s (fun t => t.board.evBit Pg.clk F.clkEventLockLost.lsb = true ∧ t.board.st = St.faulted ∧
        t.board.meshLocked = false))) ∧
    (s.alive = true → s.powered Pg.clk = true → ∀ o,
      Completes (.lockLost o) s (fun t => t.board.evBit Pg.clk F.clkEventLockLost.lsb = true ∧ t.board.meshLocked = false ∧ t.board.st = St.faulted ∧
        { t with board := s.board, bup := { t.bup with toService := s.bup.toService, resetPending := s.bup.resetPending, heldAbort := s.bup.heldAbort } } = s ∧
        s.board.Keeps t.board ([(Pg.clk, 0x010), (Pg.clk, 0x110), (Pg.clk, 0x114), (Pg.bup, 0x010)] ++ evs [Pg.clk, Pg.bup]) logCnts [])) ∧
    (s.alive = true → s.board.meshLocked = true →
      (∀ ps, ps ≤ 25 → Completes (.phaseLimit ps) s (fun t => t.board.fld Pg.clk F.clkPhaseMaxPs = ps ∧ { t with board := s.board } = s ∧
        s.board.Keeps t.board [(Pg.clk, 0x108)] [] [] ∧ s.board.Silent t.board)) ∧
      (∀ ps, 25 < ps → ps ≤ 100 → Completes (.phaseLimit ps) s (fun t => t.board.fld Pg.clk F.clkPhaseMaxPs = ps ∧
        t.board.evBit Pg.clk F.clkEventPhaseLimit.lsb = true ∧
        t.board.cnt Pg.clk Cn.clkPhaseLimitTicks = (s.board.cnt Pg.clk Cn.clkPhaseLimitTicks + 1) % 2 ^ 64 ∧ { t with board := s.board } = s ∧
        s.board.Keeps t.board ((Pg.clk, 0x108) :: evs [Pg.clk]) ((Pg.clk, Cn.clkPhaseLimitTicks) :: logCnts) [])) ∧
      (∀ ps, 100 < ps → Completes (.phaseLimit ps) s (fun t => t.board.evBit Pg.clk F.clkEventPhaseLimit.lsb = true ∧
        t.board.evBit Pg.clk F.clkEventLockLost.lsb = true ∧ t.board.meshLocked = false ∧ t.board.st = St.faulted)))

/-- R356, R359, R360, R393: FIFO overruns, stopped clocks and the flush of a crossing are counted and shown in LAST_FAULT, with the effects
of R359's table. -/
def Obligations.CrossingsFlushAndTimeOut : Prop :=
  ∀ s : State, s.powered Pg.clk = true →
    (∀ kind inst, kind < 8 → inst < 256 →
      Completes (.fifoOverrun kind inst true) s (fun t => t.board.evBit Pg.clk F.clkEventFifoOverrun.lsb = true ∧
        t.board.cnt Pg.clk Cn.clkFifoOverruns = (s.board.cnt Pg.clk Cn.clkFifoOverruns + 1) % 2 ^ 64 ∧ t.board.fld Pg.clk F.clkLastFaultKind = kind ∧
        t.board.fld Pg.clk F.clkLastFaultInstance = inst ∧ t.board.fld Pg.clk F.clkLastFaultCause = 2 ∧ { t with board := s.board } = s ∧
        s.board.Keeps t.board ((Pg.clk, 0x118) :: evs [Pg.clk]) ((Pg.clk, Cn.clkFifoOverruns) :: logCnts) [])) ∧
    (∀ side, sideKnown side = true →
      Completes (.resetNotify side) s (fun t => Out.crossing side true ∈ t.board.out ∧ t.board.fld Pg.clk F.clkLastFaultCause = 3 ∧
        t.board.cnt Pg.clk Cn.clkResetFlushes = (s.board.cnt Pg.clk Cn.clkResetFlushes + 1) % 2 ^ 64 ∧
        t.board.evBit Pg.clk F.clkEventResetFlush.lsb = true ∧
        (∀ x ∈ t.fab.tags, ¬ ((sideTags side).1 ≤ x ∧ x < (sideTags side).2)) ∧ (∀ w ∈ t.fab.writes, sidePort side w.1 = false) ∧
        { t with board := s.board, freeCtr := s.freeCtr, fab := { t.fab with tags := s.fab.tags, writes := s.fab.writes } } = s ∧
        s.board.Keeps t.board ((Pg.clk, 0x118) :: evs [Pg.clk]) ((Pg.clk, Cn.clkResetFlushes) :: (Pg.clk, Cn.clkBurstsDiscarded) :: logCnts) [.crossing side true])) ∧
    (s.alive = true → ∀ c : Clock, clockOk c = true → clockCode c ∉ s.clk.stopped → clockCode c ∉ s.clk.inReset →
      Completes (.cdcTimeout c) s (fun t => t.board.evBit Pg.clk F.clkEventCdcTimeout.lsb = true ∧ clockCode c ∈ t.clk.stopped ∧
        t.board.cnt Pg.clk Cn.clkCdcTimeouts = (s.board.cnt Pg.clk Cn.clkCdcTimeouts + 1) % 2 ^ 64 ∧ t.board.fld Pg.clk F.clkLastFaultCause = 1 ∧
        ((∃ o, c = .osc o) → t.board.evBit Pg.clk F.clkEventLockLost.lsb = true ∧ t.board.st = St.faulted) ∧
        (c = .aclk → t.board.st = St.faulted ∧ ∀ k < 96, 28 + k ∉ t.board.on) ∧
        (c = .shclk → t.tier.loads = [] ∧ (s.board.st = St.service → t.board.st = St.held)) ∧
        (∀ k, c = .dclk k → s.board.st = St.service → t.board.st = St.held) ∧
        (∀ e, c = .lane e → s.board.engState e = Eng.up → t.board.engState e = Eng.down))) ∧
    (s.alive = true → ∀ c : Clock, clockOk c = true → clockCode c ∉ s.clk.stopped → clockCode c ∈ s.clk.inReset → s.clk.inReset.Nodup →
      Completes (.cdcTimeout c) s (fun t => t.board.evBit Pg.clk F.clkEventCdcTimeout.lsb = true ∧ clockCode c ∉ t.clk.inReset ∧
        t.board.cnt Pg.clk Cn.clkCdcTimeouts = (s.board.cnt Pg.clk Cn.clkCdcTimeouts + 1) % 2 ^ 64 ∧ t.board.fld Pg.clk F.clkLastFaultCause = 1 ∧
        { t with board := s.board, clk := s.clk } = s ∧
        s.board.Keeps t.board ((Pg.clk, 0x118) :: evs [Pg.clk]) ((Pg.clk, Cn.clkCdcTimeouts) :: logCnts) []))

/-- R360, R393: FLUSH_DONE lets a side leave reset; when ACLK runs again the module is FAULTED; the fault drain programs the staged logs and
leaves only the always-on domain powered. -/
def Obligations.FaultedDrainsAndLeavesReset : Prop :=
  ∀ s : State,
    (∀ side, Completes (.flushDone side) s (fun t => t = { s with clk := { s.clk with inReset := s.clk.inReset.erase side } })) ∧
    (s.aclkStopped = true → s.clk.stopped.Nodup →
      Completes .aclkReturn s (fun t => t.aclkStopped = false ∧ t.board.st = St.faulted ∧
        { t with board := s.board, clk := s.clk,
                 bup := { t.bup with toService := s.bup.toService, resetPending := s.bup.resetPending, heldAbort := s.bup.heldAbort } } = s ∧
        s.board.Keeps t.board ((Pg.bup, 0x010) :: evs [Pg.bup]) logCnts [])) ∧
    (s.board.st = St.faulted →
      Completes .faultDrainComplete s (fun t => t.board.st = St.faulted ∧ (∀ d < 128, d ∉ t.board.on) ∧
        t.store.fieldLog = s.store.fieldLog ++ s.store.fieldStaged ∧ t.store.fieldStaged = [] ∧ t.board.toShelf = []))

/-! ### Bring-up, HELD, compute reset and the stores (14_bringup_and_defects) -/

/-- R391, R394: the stage that runs ends and the next begins: stages 1 and 2 lead on in CALIBRATING, 3 and 4 in TESTING, 5 in TRAINING, 6 in
CHECKING. Stage 2 ends only once the mesh has locked. Without findings the duration stands in STAGE_MSn. R397, R352: a stage that passes its limit ends with the cause STAGE_TIMEOUT, counted, and the next begins; stage 2 ends in LOCK_LOST. -/
def Obligations.StagesFollowInOrder : Prop :=
  (∀ (s : State) (ms : Nat) (found : List Found), 1 ≤ s.stage → s.stage ≤ 6 → (s.stage = 2 → s.board.meshLocked = true) →
    Completes (.bringupStageEnd ms found) s (fun t => t.stage = s.stage + 1 ∧
      some t.board.st = [0, St.calibrating, St.calibrating, St.testing, St.testing, St.training, St.checking][s.stage]? ∧
      (s.stage ∈ [2, 5, 6] → found = [] → ms < 2 ^ 32 → t.board.fld Pg.bup (F.bupStageMsMs (s.stage - 1)) = ms) ∧
      (s.stage = 4 → found = [] → t.board.flag Pg.bup F.bupStatusQuick =
        (s.board.flag Pg.bup F.bupControlQuickReq && !s.board.flag Pg.bup F.bupStatusFullDue)))) ∧
  (∀ (s : State) (ms : Nat) (found : List Found), 1 ≤ s.stage → s.stage ≤ 6 →
    (s.stage ≠ 2 → Completes (.stageTimeout ms found) s (fun t => t.stage = s.stage + 1 ∧
      (s.stage ∈ [5, 6] → found = [] → (t.board.fld Pg.bup F.bupHeldCauseCauses).testBit Hc.stageTimeout = true ∧
        t.board.cnt Pg.bup Cn.bupStageTimeouts = (s.board.cnt Pg.bup Cn.bupStageTimeouts + 1) % 2 ^ 64 ∧
        t.board.evBit Pg.bup F.bupEventStageTimeout.lsb = true))) ∧
    (s.stage = 2 → Completes (.stageTimeout ms found) s (fun t => t.board.st = St.faulted ∧ t.board.evBit Pg.clk F.clkEventLockLost.lsb = true)))


/-- R406, R410, R415: CHECKING tests TOPOLOGY, BELOW_FLOOR and MEMORY; with no cause standing SERVICE waits for the next grid point, else
the module enters HELD. CHECKING_COMPLETE comes once every required session is UP, TOPO_WAIT without them. -/
def Obligations.CheckingDecides : Prop :=
  ∀ (s : State) (c : Instr), s.board.st = St.checking → s.bup.toService = false →
    (c = .topoWait ∨ (c = .checkingComplete ∧ (s.bup.afterReset = true ∨ s.sessionsReady = true))) →
    Completes c s (fun t =>
      let cause := t.board.fld Pg.bup F.bupHeldCauseCauses
      t.stage = 0 ∧ t.bup.afterReset = false ∧
      cause.testBit Hc.topology = (!s.topoFails.1.isEmpty || s.topoFails.2) ∧
      (∀ g < 12, (t.board.fld Pg.bup F.bupTopoMismatchGroups).testBit g = s.topoFails.1.contains g) ∧
      t.board.flag Pg.bup F.bupTopoMismatchRack = s.topoFails.2 ∧
      cause.testBit Hc.belowFloor = (decide (s.enabledCores.length < fuseFloor s.store.variant) && !s.bup.accepted.testBit Hc.belowFloor) ∧
      cause.testBit Hc.memory = s.memoryShort ∧
      (∀ i, i ∉ [Hc.topology, Hc.belowFloor, Hc.memory, Hc.logInvalid] → cause.testBit i = (s.board.fld Pg.bup F.bupHeldCauseCauses).testBit i) ∧
      (cause = 0 → t.board.st = St.checking ∧ t.bup.toService = true) ∧
      (cause ≠ 0 → t.board.st = St.held ∧ t.bup.toService = false ∧ t.board.evBit Pg.bup F.bupEventHeldEntered.lsb = true) ∧
      { t with board := s.board, bup := s.bup, freeCtr := s.freeCtr } = s)

/-- R393, R416: a class C fault sets its EVENT bit and the cause CLASS_C; in SERVICE the module is HELD at once, and its operators end at the
next grid point. -/
def Obligations.ClassCFaultLeadsToHeld : Prop :=
  ∀ (s : State) (page bit : Nat), s.alive = true → s.present page = true → s.powered page = true → heldBit (pageKindOf page) bit = true →
    Completes (.heldEntry page bit) s (fun t => t.board.evBit page bit = true ∧
      (t.board.fld Pg.bup F.bupHeldCauseCauses).testBit Hc.classC = true ∧
      (s.board.st = St.service → t.board.st = St.held ∧ t.bup.heldAbort = true ∧ t.board.evBit Pg.bup F.bupEventHeldEntered.lsb = true) ∧
      (s.board.st ≠ St.service → t.board.st = s.board.st ∧ t.bup = s.bup) ∧
      { t with board := s.board, bup := { t.bup with heldAbort := s.bup.heldAbort } } = s ∧
      s.board.Keeps t.board ([(Pg.bup, 0x010), (Pg.bup, 0x10C)] ++ evs [page, Pg.bup]) ((Pg.bup, Cn.bupHeldEntries) :: logCnts) [])

/-- R391, R377, R392, R417, R418: what the commands of BUP.CMD do in the states that allow them. R398: a command that the state does not allow is refused with cause 1, counted, and changes nothing else. -/
def Obligations.BringupCommandsAct : Prop :=
  (∀ (s : State) (l : Link), s.mayWrite l Pg.bup →
    (s.board.st = St.standby → s.board.flag Pg.thm F.thmStatusInletHigh = false → s.board.flag Pg.thm F.thmStatusFlowLow = false →
      Completes (.powerOn l) s (fun t => t.board.fld Pg.bup F.bupCmdStatusOp = 1 ∧ t.board.fld Pg.bup F.bupCmdStatusCause = 0 ∧
        (s.board.flag Pg.pwr F.pwrGlobalStatusHoldupReady = true → t.board.st = St.sequencing ∧ t.stage = 1 ∧
          t.store.lifeBringups = s.store.lifeBringups + 1 ∧ t.board.fld Pg.bup F.bupHeldCauseCauses = 0 ∧
          t.board.cnt Pg.bup Cn.bupBringups = (s.board.cnt Pg.bup Cn.bupBringups + 1) % 2 ^ 64) ∧
        (s.board.flag Pg.pwr F.pwrGlobalStatusHoldupReady = false → t.board.st = St.standby ∧ t.bup.powerOn = true))) ∧
    (s.board.st ≠ St.off → s.board.st ≠ St.standby →
      Completes (.powerOff l) s (fun t => t.board.st = St.standby ∧ t.stage = 0 ∧ t.board.fld Pg.pwr F.pwrGlobalStatusLastOff = 1 ∧
        t.store.lastOff = 1 ∧ (∀ d < 128, d ∉ t.board.on) ∧ t.bup.powerOn = false ∧ t.bup.resetPending = false ∧ t.bup.toService = false)) ∧
    (s.board.st = St.held →
      Completes (.recheck l) s (fun t => t.board.st = St.checking ∧ t.stage = 7) ∧
      (∀ mask, mask < 65536 → bitsWithout mask 0x2C0 = 0 →
        Completes (.acceptCmd l mask) s (fun t => t.board.st = St.checking ∧ t.stage = 7 ∧ t.bup.accepted = s.bup.accepted ||| mask ∧
          (∀ i, (t.board.fld Pg.bup F.bupHeldCauseCauses).testBit i =
            ((s.board.fld Pg.bup F.bupHeldCauseCauses).testBit i && !mask.testBit i)) ∧
          { t with board := s.board, bup := { t.bup with accepted := s.bup.accepted } } = s ∧
          s.board.Keeps t.board ([(Pg.bup, 0x010), (Pg.bup, 0x108), (Pg.bup, 0x10C)] ++ evs [Pg.bup]) hostCnts [])) ∧
      (∀ mask, mask < 65536 → bitsWithout mask 0x2C0 ≠ 0 →
        Completes (.acceptCmd l mask) s (fun t => t.board.fld Pg.bup F.bupCmdStatusCause = 2 ∧ t.board.st = St.held ∧ { t with board := s.board } = s ∧
          s.board.Keeps t.board ((Pg.bup, 0x108) :: evs [Pg.bup]) ((Pg.bup, Cn.bupCmdsRefused) :: hostCnts) []))) ∧
    (s.board.st = St.held ∨ s.board.st = St.service →
      Completes (.computeReset l) s (fun t => t.bup.resetPending = true ∧ t.board.fld Pg.bup F.bupCmdStatusOp = 5 ∧
        t.board.fld Pg.bup F.bupCmdStatusCause = 0 ∧ { t with board := s.board, bup := { t.bup with resetPending := s.bup.resetPending } } = s ∧
        s.board.Keeps t.board [(Pg.bup, 0x108)] hostCnts []))) ∧
  (∀ (s : State) (l : Link) (op : Nat) (c : Instr), s.mayWrite l Pg.bup →
    ((op = 1 ∧ c = .powerOn l ∧ s.board.st ≠ St.standby) ∨ (op = 2 ∧ c = .powerOff l ∧ s.board.st = St.standby) ∨
      (op = 3 ∧ c = .recheck l ∧ s.board.st ≠ St.held) ∨ (∃ m, op = 4 ∧ c = .acceptCmd l m ∧ s.board.st ≠ St.held) ∨
      (op = 5 ∧ c = .computeReset l ∧ s.board.st ≠ St.held ∧ s.board.st ≠ St.service) ∨ (op = 6 ∧ c = .cfgBegin l ∧ s.cfgState = false) ∨
      (op = 7 ∧ c = .cfgCommit l ∧ s.cfgState = false) ∨ (op = 8 ∧ c = .cfgRevert l ∧ s.board.st ≠ St.held)) →
    Completes c s (fun t => t.board.fld Pg.bup F.bupCmdStatusOp = op ∧ t.board.fld Pg.bup F.bupCmdStatusCause = 1 ∧
      t.board.cnt Pg.bup Cn.bupCmdsRefused = (s.board.cnt Pg.bup Cn.bupCmdsRefused + 1) % 2 ^ 64 ∧
      t.board.evBit Pg.bup F.bupEventCmdRefused.lsb = true ∧ { t with board := s.board } = s ∧
      s.board.Keeps t.board ((Pg.bup, 0x108) :: evs [Pg.bup]) ((Pg.bup, Cn.bupCmdsRefused) :: hostCnts) []))


/-- R411: CFG_BEGIN empties the staging buffer, CFG_DATA appends 4 B to it, CFG_COMMIT writes it whole to the bank that is not current
when its blocks pass, and refuses it with cause 3, 4 or 5 otherwise, writing nothing. -/
def Obligations.ConfigurationIsStagedAndCommitted : Prop :=
  ∀ (s : State) (l : Link), s.mayWrite l Pg.bup → s.cfgState = true →
    Completes (.cfgBegin l) s (fun t => t.bup.staging = [] ∧ t.bup.stagingOver = false ∧ t.board.fld Pg.bup F.bupCfgStagedBytes = 0 ∧
      { t with board := s.board, bup := { t.bup with staging := s.bup.staging, stagingOver := s.bup.stagingOver } } = s ∧
      s.board.Keeps t.board [(Pg.bup, 0x108), (Pg.bup, 0x118)] hostCnts []) ∧
    (∀ v : Word, s.bup.staging.length + 4 ≤ 2 ^ 20 →
      Completes (.cfgData l v) s (fun t => t.bup.staging = s.bup.staging ++ toLE 4 v.toNat ∧
        t.board.fld Pg.bup F.bupCfgStagedBytes = s.bup.staging.length + 4 ∧
        { t with board := s.board, bup := { t.bup with staging := s.bup.staging } } = s ∧ s.board.Keeps t.board [(Pg.bup, 0x118)] hostCnts [])) ∧
    (∀ v : Word, 2 ^ 20 < s.bup.staging.length + 4 →
      Completes (.cfgData l v) s (fun t => t.bup.stagingOver = true ∧
        { t with board := s.board, bup := { t.bup with stagingOver := s.bup.stagingOver } } = s ∧ s.board.Keeps t.board [] hostCnts [])) ∧
    (s.bup.stagingOver = false → s.stagedGood = true → s.shelfBusy = false →
      Completes (.cfgCommit l) s (fun t => t.board.fld Pg.bup F.bupCmdStatusCause = 0 ∧ t.board.evBit Pg.bup F.bupEventCfgCommitted.lsb = true ∧
        t.board.cnt Pg.bup Cn.bupCfgCommits = (s.board.cnt Pg.bup Cn.bupCfgCommits + 1) % 2 ^ 64 ∧
        t.store = (if s.store.read.bank = some 0 then { s.store with bankB := s.bup.staging } else { s.store with bankA := s.bup.staging }) ∧
        { t with board := s.board, store := s.store } = s ∧
        s.board.Keeps t.board ([(Pg.bup, 0x010), (Pg.bup, 0x108), (Pg.bup, 0x11C)] ++ evs [Pg.bup]) ((Pg.bup, Cn.bupCfgCommits) :: hostCnts) [])) ∧
    ((s.bup.stagingOver = true ∨ s.stagedGood = false ∨ s.shelfBusy = true) →
      Completes (.cfgCommit l) s (fun t =>
        t.board.fld Pg.bup F.bupCmdStatusCause = (if s.bup.stagingOver = true then 3 else if s.stagedGood = false then 4 else 5) ∧
        t.board.evBit Pg.bup F.bupEventCfgRefused.lsb = true ∧ { t with board := s.board } = s ∧
        s.board.Keeps t.board ((Pg.bup, 0x108) :: evs [Pg.bup]) hostCnts []))

/-- R411: CFG_REVERT in HELD erases the blocks above the highest committed GENERATION where there are any, else the current bank when the
other one holds a COMMIT, else nothing, with cause 6. -/
def Obligations.CfgRevertErases : Prop :=
  ∀ (s : State) (l : Link), s.mayWrite l Pg.bup → s.board.st = St.held →
    let a := blocksOf s.store.bankA
    let b := blocksOf s.store.bankB
    let cur := currentBank a b
    ((∃ x ∈ a ++ b, x.above cur = true) →
      Completes (.cfgRevert l) s (fun t => t.board.fld Pg.bup F.bupCmdStatusCause = 0 ∧
        t.store = { s.store with bankA := bankBelow s.store.bankA cur, bankB := bankBelow s.store.bankB cur } ∧ { t with board := s.board, store := s.store } = s)) ∧
    ((∀ x ∈ a ++ b, x.above cur = false) → ∀ k g, cur = some (k, g) → commitGen (if k = 0 then b else a) ≠ none →
      Completes (.cfgRevert l) s (fun t => t.board.fld Pg.bup F.bupCmdStatusCause = 0 ∧
        t.store = (if k = 0 then { s.store with bankA := [] } else { s.store with bankB := [] }) ∧ { t with board := s.board, store := s.store } = s)) ∧
    ((∀ x ∈ a ++ b, x.above cur = false) → (cur = none ∨ ∃ k g, cur = some (k, g) ∧ commitGen (if k = 0 then b else a) = none) →
      Completes (.cfgRevert l) s (fun t => t.board.fld Pg.bup F.bupCmdStatusCause = 6 ∧ t.store = s.store ∧
        t.board.evBit Pg.bup F.bupEventCfgRefused.lsb = true ∧ { t with board := s.board } = s))

/-- R418, R419: a compute reset at its grid point zero-fills the working stores, the spill regions and the WRITABLE tier 0 pages, keeps every
other byte, the tier map, the stores and TK, clears CLASS_C and leaves the module in CHECKING. -/
def Obligations.ComputeResetClearsAndKeeps : Prop :=
  ∀ s : State, (s.board.st = St.service ∨ s.board.st = St.held) → s.bup.resetPending = true → s.gridRuns = true →
    Completes .computeResetTakeEffect s (fun t => t.board.st = St.checking ∧ t.bup.resetPending = false ∧ t.bup.afterReset = true ∧
      t.board.cnt Pg.bup Cn.bupComputeResets = (s.board.cnt Pg.bup Cn.bupComputeResets + 1) % 2 ^ 64 ∧
      (t.board.fld Pg.bup F.bupHeldCauseCauses).testBit Hc.classC = false ∧
      (∀ a, a < Lay.windowsEnd → memByte t.mem a = 0) ∧ (∀ a, Lay.spill 0 ≤ a → a < Lay.spill 96 → memByte t.mem a = 0) ∧
      (∀ p, (p, s.tier.entry p) ∈ s.tier.map → (s.tier.entry p).valid = true → (s.tier.entry p).writable = true → (s.tier.entry p).tier = 0 →
        ∀ a, pageOf a = p → memByte t.mem a = 0) ∧
      (∀ a, Lay.windowsEnd ≤ a → (a < Lay.spill 0 ∨ Lay.spill 96 ≤ a) →
        (∀ e ∈ s.tier.map, e.1 = pageOf a → e.2.valid = true → e.2.writable = true → e.2.tier ≠ 0) → memByte t.mem a = memByte s.mem a) ∧
      t.tier.map = s.tier.map ∧ t.store = s.store ∧ t.feeds = [] ∧ (∀ c < 96, t.core c = Core.init))

/-- R402: an in-service finding joins the staged log with source 4 and the module's bring-up count while the log has room, counted; the
shelf programs what is staged. -/
def Obligations.FieldDefectsAreLogged : Prop :=
  ∀ s : State,
    (s.alive = true → ∀ f : Found, f.kind ∉ [8, 9, 12] → s.store.logCount + 1 < logMax →
      Completes (.fieldDefectAppend f) s (fun t =>
        t.store = { s.store with fieldStaged := s.store.fieldStaged ++ [⟨f.kind, 4, f.unit, f.detail, s.store.lifeBringups⟩] } ∧
        t.board.cnt Pg.fus Cn.fusFieldAppends = (s.board.cnt Pg.fus Cn.fusFieldAppends + 1) % 2 ^ 64 ∧
        t.board.fld Pg.fus F.fusFieldEntriesCount = s.store.logCount + 1 ∧ t.board.evBit Pg.fus F.fusEventFieldEntry.lsb = true ∧
        (s.store.logCount + 1 = logNear → t.board.evBit Pg.fus F.fusEventLogNearFull.lsb = true) ∧
        { t with board := s.board, store := s.store, bup := { t.bup with sinceMerge := s.bup.sinceMerge } } = s ∧
        s.board.Keeps t.board ((Pg.fus, F.fusFieldEntriesCount.off) :: evs [Pg.fus]) ((Pg.fus, Cn.fusFieldAppends) :: logCnts) [])) ∧
    (s.alive = true → ∀ f : Found, f.kind ∉ [8, 9, 12] → s.store.logCount + 1 = logMax →
      Completes (.fieldDefectAppend f) s (fun t => t.board.flag Pg.fus F.fusStatusLogFull = true ∧ t.board.flag Pg.bup F.bupStatusFullDue = true ∧
        t.board.evBit Pg.fus F.fusEventLogFull.lsb = true ∧ (s.board.st = St.service → t.board.st = St.held))) ∧
    (s.alive = true → ∀ f : Found, f.kind ∉ [8, 9, 12] → logMax ≤ s.store.logCount →
      Completes (.fieldDefectAppend f) s (fun t => t.store = s.store ∧
        t.board.cnt Pg.fus Cn.fusLogDropped = (s.board.cnt Pg.fus Cn.fusLogDropped + 1) % 2 ^ 64 ∧
        t.bup.extra = s.bup.extra ++ [⟨f.kind, 4, f.unit, f.detail, s.store.lifeBringups⟩])) ∧
    (3 ∈ s.board.on →
      Completes .logProgram s (fun t => t.store = { s.store with fieldLog := s.store.fieldLog ++ s.store.fieldStaged, fieldStaged := [] } ∧
        t.board.toShelf = [] ∧ (s.board.shelfLog.length + s.board.toShelf.length ≤ shelfLogMax → t.board.shelfLog = s.board.shelfLog ++ s.board.toShelf) ∧
        { t with board := s.board, store := s.store } = s))

/-! ### Ownership, management, telemetry and registers (15_management, 16_register_pages) -/

/-- R433, R428, R360: a claim with no owner, a release by the owner and a reset of the owner's link change the owner, each counted once; a
claim while the other link owns the module is counted and refused; nothing but the owner, its event, its vectors and the counts changes. A
link reset also empties the link's function and resets its status; a link that comes up, and the management port, show in TEL.STATUS. -/
def Obligations.OwnershipFollowsClaims : Prop :=
  ∀ (s : State) (l : Link), s.answers = true → s.board.flag Pg.pwr F.pwrGlobalStatusFlushing = false →
    let own := fun (k : Nat) (s t : State) => t.board.fld Pg.tel F.telStatusOwner = k ∧
      t.board.cnt Pg.tel Cn.telOwnerChanges = (s.board.cnt Pg.tel Cn.telOwnerChanges + 1) % 2 ^ 64 ∧
      t.board.evBit Pg.tel F.telEventOwnerChanged.lsb = true
    let frame := fun (s t : State) => { t with board := s.board } = s ∧
      s.board.Keeps t.board ((Pg.tel, 0x010) :: evs [Pg.tel]) ((Pg.tel, Cn.telOwnerChanges) :: hostCnts) []
    (s.board.owner = none → Completes (.claim l) s (fun t => own (linkIdx l + 1) s t ∧ frame s t)) ∧
    (s.board.owner = some (linkIdx l) → Completes (.claim l) s (fun t => t = s.counted)) ∧
    (s.board.owner = some (1 - linkIdx l) →
      Completes (.claim l) s (fun t => t.board.cnt Pg.tel Cn.telClaimRefused = (s.board.cnt Pg.tel Cn.telClaimRefused + 1) % 2 ^ 64 ∧
        { t with board := s.board } = s ∧ s.board.Keeps t.board [] [(Pg.tel, Cn.telClaimRefused), (Pg.mod, Cn.modBar0Writes)] [] ∧
        s.board.Silent t.board)) ∧
    (s.board.owner = some (linkIdx l) → Completes (.releaseOwner l) s (fun t => own 0 s t ∧ frame s t)) ∧
    (s.board.owner ≠ some (linkIdx l) → Completes (.releaseOwner l) s (fun t => t = s.counted)) ∧
    Completes (.pcieLinkReset l) s (fun t =>
      (s.board.owner = some (linkIdx l) → own 0 s t) ∧ (s.board.owner ≠ some (linkIdx l) → t.board.owner = s.board.owner) ∧
      t.board.msgs = s.board.msgs ++ [.crossing (linkSide (linkIdx l)) false] ∧ linkSide (linkIdx l) ∈ t.clk.inReset ∧
      (∀ off < 4096, t.board.msixRd (linkIdx l) false off = msixDefault (msixKey (linkIdx l) false off)) ∧
      t.mgmt.remote = s.mgmt.remote.filter (fun w => w.link ≠ linkIdx l) ∧
      { t with board := s.board, clk := { t.clk with inReset := s.clk.inReset }, mgmt := { t.mgmt with remote := s.mgmt.remote } } = s ∧
      (∀ p off, (∀ r ∈ (Pg.tel, 0x010) :: evs [Pg.tel], regKey r.1 r.2 ≠ regKey p off) → t.board.rd p off = s.board.rd p off)) ∧
    (∀ rate width, rate < 8 → width < 32 →
      Completes (.pcieLinkUp l rate width) s (fun t =>
        (l = .a → t.board.fld Pg.tel F.telStatusLinkAUp = 1 ∧ t.board.fld Pg.tel F.telStatusRateA = rate ∧ t.board.fld Pg.tel F.telStatusWidthA = width) ∧
        (l = .b → t.board.fld Pg.tel F.telStatusLinkBUp = 1 ∧ t.board.fld Pg.tel F.telStatusRateB = rate ∧ t.board.fld Pg.tel F.telStatusWidthB = width) ∧
        t.board.fld Pg.tel F.telStatusOwner = s.board.fld Pg.tel F.telStatusOwner ∧ t.clk.stopped = s.clk.stopped.erase (linkSide (linkIdx l)) ∧
        { t with board := s.board, clk := { t.clk with stopped := s.clk.stopped } } = s ∧ s.board.Keeps t.board [(Pg.tel, 0x010)] [] [] ∧
        s.board.Silent t.board)) ∧
    (∀ u, Completes (.mgmtPortLink u) s (fun t => t.board.flag Pg.tel F.telStatusMgmtUp = u ∧
      t.board.fld Pg.tel F.telStatusOwner = s.board.fld Pg.tel F.telStatusOwner ∧ { t with board := s.board } = s ∧
      s.board.Keeps t.board [(Pg.tel, 0x010)] [] [] ∧ s.board.Silent t.board))

/-- R430, R432: a BAR2 access through an enabled aperture reads or writes this module's memory where R172 allows it, fails and is counted where
it does not, and becomes REMOTE_ACCESS commands where the rack index names another module; the last answer to those completes it. -/
def Obligations.AperturesReachMemory : Prop :=
  ∀ (s : State) (l : Link) (off : Nat), s.answers = true →
    (∀ n a, 0 < n → s.board.aperture off = some a → s.isOwnRack a = true →
      (∀ bs, s.hostRead a n = some bs → Completes (.bar2Read l off n) s (fun t => bs = s.rdBytes (a % 2 ^ 52) n ∧ { t with board := s.board } = s ∧
        s.board.Keeps t.board [] [(Pg.tel, Cn.telBar2Reads)] [.bar2 (linkIdx l) false bs])) ∧
      (s.hostRead a n = none → Completes (.bar2Read l off n) s (fun t => { t with board := s.board } = s ∧
        t.board.cnt Pg.tel Cn.telBar2Errors = (s.board.cnt Pg.tel Cn.telBar2Errors + 1) % 2 ^ 64 ∧
        s.board.Keeps t.board [] [(Pg.tel, Cn.telBar2Reads), (Pg.tel, Cn.telBar2Errors)] [.bar2 (linkIdx l) true []]))) ∧
    (∀ n a, 0 < n → s.board.aperture off = some a → s.isOwnRack a = false →
      Completes (.bar2Read l off n) s (fun t => t.mgmt.remote = s.mgmt.remote ++ [⟨linkIdx l, false, ceilDiv n 1024, [], false⟩] ∧
        t.board.msgs = s.board.msgs ++ (List.range (ceilDiv n 1024)).map (fun i =>
          .remote (a / 2 ^ 52 % 4096) (a + 1024 * i) (min 1024 (n - 1024 * i)) 0 []) ∧ t.mem = s.mem)) ∧
    (∀ (bs : Bytes) (a : Nat), bs ≠ [] → s.board.aperture off = some a → s.isOwnRack a = true →
      s.board.flag Pg.tel (F.telApertureLoWriteEn (off / 2 ^ 32 % 16)) = true →
      (s.writablePages (a % 2 ^ 52) bs.length = true → s.rangeOn (a % 2 ^ 52) bs.length = true →
        Completes (.bar2Write l off bs) s (fun t => (∀ i (h : i < bs.length), memByte t.mem (a % 2 ^ 52 + i) = bs[i]) ∧
          (∀ x, (x < a % 2 ^ 52 ∨ a % 2 ^ 52 + bs.length ≤ x) → memByte t.mem x = memByte s.mem x) ∧
          { t with board := s.board, mem := s.mem } = s ∧ s.board.Keeps t.board [] [(Pg.tel, Cn.telBar2Writes)] [])) ∧
      ((s.writablePages (a % 2 ^ 52) bs.length = false ∨ s.rangeOn (a % 2 ^ 52) bs.length = false) →
        Completes (.bar2Write l off bs) s (fun t => { t with board := s.board } = s ∧
          t.board.cnt Pg.tel Cn.telBar2Errors = (s.board.cnt Pg.tel Cn.telBar2Errors + 1) % 2 ^ 64 ∧
          s.board.Keeps t.board [] [(Pg.tel, Cn.telBar2Writes), (Pg.tel, Cn.telBar2Errors)] []))) ∧
    (∀ n, 0 < n → s.board.aperture off = none → Completes (.bar2Read l off n) s (fun t => { t with board := s.board } = s ∧
      s.board.Keeps t.board [] [(Pg.tel, Cn.telBar2Reads), (Pg.tel, Cn.telBar2Errors)] [.bar2 (linkIdx l) true []])) ∧
    (∀ bs : Bytes, bs ≠ [] → (s.board.aperture off = none ∨ s.board.flag Pg.tel (F.telApertureLoWriteEn (off / 2 ^ 32 % 16)) = false) →
      Completes (.bar2Write l off bs) s (fun t => { t with board := s.board } = s ∧
        s.board.Keeps t.board [] [(Pg.tel, Cn.telBar2Writes), (Pg.tel, Cn.telBar2Errors)] [])) ∧
    (∀ (w : RemoteWait) (rest : List RemoteWait) (status : Nat) (bs : Bytes), w.link = linkIdx l → s.mgmt.remote = w :: rest →
      let u : State := { s with mgmt := { s.mgmt with remote := rest } }
      (1 < w.left → Completes (.remoteAccessResponse l status bs) s (fun t => t = { s with mgmt := { s.mgmt with
        remote := { w with left := w.left - 1, data := w.data ++ bs, bad := w.bad || decide (status ≠ 0) } :: rest } })) ∧
      (w.left = 1 → w.bad = false → status = 0 → Completes (.remoteAccessResponse l status bs) s (fun t => { t with board := s.board } = u ∧
        s.board.Keeps t.board [] [] (if w.write then [] else [.bar2 (linkIdx l) false (w.data ++ bs)]))) ∧
      (w.left = 1 → (w.bad = true ∨ status ≠ 0) → Completes (.remoteAccessResponse l status bs) s (fun t => { t with board := s.board } = u ∧
        s.board.Keeps t.board [] [(Pg.tel, Cn.telBar2Errors)] (if w.write then [] else [.bar2 (linkIdx l) true []]))))

/-- R437: a datagram whose length, MAGIC or rack index is wrong is dropped; one whose MAC fails is answered with STATUS 2, one whose SEQ is at
most LAST_SEQ with STATUS 1; neither changes LAST_SEQ or anything beside its counter and event, whichever command it carries. -/
def Obligations.DatagramsAreAuthenticated : Prop :=
  ∀ (s : State) (d : Bytes) (op : Nat) (c : Instr),
    (op, c) ∈ [(1, .cap d), (2, .mgmtPowerOn d), (3, .mgmtPowerOff d), (4, .mgmtComputeReset d), (5, .setOwner d), (6, .readReg d), (7, .readMem d),
      (8, .subscribe d), (9, .remoteAccess d)] ∨ (c = .unknownMgmtOp d ∧ (op = 0 ∨ 10 ≤ op)) →
    (s.answers = true → Mg.op d = op → (d.length < 96 ∨ d.length ≠ mgmtLen d ∨ leAt d 0 4 ≠ 0x4D474D54 ∨ Mg.rack d ≠ s.rack) →
      Completes c s (fun t => t = s)) ∧
    (s.datagram d op → s.macOk d = false → Completes c s (fun t => { t with board := s.board } = s ∧
      t.board.cnt Pg.tel Cn.telMgmtAuthFails = (s.board.cnt Pg.tel Cn.telMgmtAuthFails + 1) % 2 ^ 64 ∧
      t.board.evBit Pg.tel F.telEventMgmtAuthFail.lsb = true ∧
      s.board.Keeps t.board (evs [Pg.tel]) ((Pg.tel, Cn.telMgmtAuthFails) :: logCnts) [.mgmt (Mg.manager d) (Mg.op d) 2 (Mg.seq d) []])) ∧
    (s.datagram d op → s.macOk d = true → Mg.seq d ≤ s.board.lastSeq → Completes c s (fun t => { t with board := s.board } = s ∧
      t.board.cnt Pg.tel Cn.telMgmtStale = (s.board.cnt Pg.tel Cn.telMgmtStale + 1) % 2 ^ 64 ∧
      s.board.Keeps t.board [] [(Pg.tel, Cn.telMgmtStale)] [.mgmt (Mg.manager d) (Mg.op d) 1 (Mg.seq d) []] ∧ s.board.Silent t.board))

/-- R436, R437, R381, R440: what an authentic datagram's command does: CAP, POWER_ON, POWER_OFF, COMPUTE_RESET, SET_OWNER, SUBSCRIBE and an unknown
OP; each is answered once, and LAST_SEQ takes its SEQ. -/
def Obligations.ManagersCommand : Prop :=
  ∀ (s : State) (d : Bytes),
    (s.authentic d 1 → s.board.flag Pg.pwr F.pwrGlobalStatusFlushing = false →
      Completes (.cap d) s (fun t => s.answered t d 0 [] [] ∧ t.board.fld Pg.pwr F.pwrGlobalCapMgmtW10 = Mg.arg d 0 2 ∧ t.capShown ∧
        { t with board := s.board } = s ∧
        s.board.Keeps t.board ((Pg.pwr, 0x104) :: (Pg.pwr, 0x10C) :: mgmtRegs ++ evs [Pg.pwr]) ((Pg.pwr, Cn.pwrGlobalCapChanges) :: mgmtCnts ++ logCnts)
          [.mgmt (Mg.manager d) 1 0 (Mg.seq d) []])) ∧
    (∀ op c, (op, c) ∈ [(1, .cap d), (2, .mgmtPowerOn d), (3, .mgmtPowerOff d), (4, .mgmtComputeReset d)] → s.authentic d op →
      s.board.flag Pg.pwr F.pwrGlobalStatusFlushing = true →
      Completes c s (fun t => s.answered t d 3 [] [] ∧ { t with board := s.board } = s ∧ s.board.Keeps t.board mgmtRegs [] [.mgmt (Mg.manager d) op 3 (Mg.seq d) []])) ∧
    (s.authentic d 2 → s.board.flag Pg.pwr F.pwrGlobalStatusFlushing = false → s.board.st = St.standby → s.board.flag Pg.thm F.thmStatusInletHigh = false → s.board.flag Pg.thm F.thmStatusFlowLow = false →
      s.board.flag Pg.pwr F.pwrGlobalStatusHoldupReady = true →
      Completes (.mgmtPowerOn d) s (fun t => s.answered t d 0 [] [] ∧ t.board.st = St.sequencing ∧ t.stage = 1 ∧
        t.board.cnt Pg.bup Cn.bupBringups = (s.board.cnt Pg.bup Cn.bupBringups + 1) % 2 ^ 64)) ∧
    (s.authentic d 2 → s.board.flag Pg.pwr F.pwrGlobalStatusFlushing = false → s.board.st ≠ St.standby → Completes (.mgmtPowerOn d) s (fun t => s.answered t d 3 [] [] ∧
      t.board.fld Pg.bup F.bupCmdStatusCause = 1 ∧ t.board.st = s.board.st ∧ { t with board := s.board } = s)) ∧
    (s.authentic d 3 → s.board.flag Pg.pwr F.pwrGlobalStatusFlushing = false → s.board.st ≠ St.standby → Completes (.mgmtPowerOff d) s (fun t => t.board.lastSeq = Mg.seq d ∧
      t.board.out.getLast? = some (.mgmt (Mg.manager d) 3 0 (Mg.seq d) []) ∧ t.board.st = St.standby ∧ t.store.lastOff = 1 ∧
      (∀ k < 128, k ∉ t.board.on))) ∧
    (s.authentic d 4 → s.board.flag Pg.pwr F.pwrGlobalStatusFlushing = false → (s.board.st = St.held ∨ s.board.st = St.service) → Completes (.mgmtComputeReset d) s (fun t => s.answered t d 0 [] [] ∧
      t.bup.resetPending = true ∧ { t with board := s.board, bup := { t.bup with resetPending := s.bup.resetPending } } = s ∧
      s.board.Keeps t.board ((Pg.bup, 0x108) :: mgmtRegs) mgmtCnts [.mgmt (Mg.manager d) 4 0 (Mg.seq d) []])) ∧
    (s.authentic d 4 → s.board.flag Pg.pwr F.pwrGlobalStatusFlushing = false → s.board.st ≠ St.held → s.board.st ≠ St.service → Completes (.mgmtComputeReset d) s (fun t => s.answered t d 3 [] [] ∧
      t.board.fld Pg.bup F.bupCmdStatusCause = 1 ∧ { t with board := s.board } = s)) ∧
    (s.authentic d 5 → Mg.arg d 0 1 ≤ 2 → Completes (.setOwner d) s (fun t => s.answered t d 0 [] [] ∧
      t.board.fld Pg.tel F.telStatusOwner = Mg.arg d 0 1 ∧
      t.board.cnt Pg.tel Cn.telOwnerChanges = (s.board.cnt Pg.tel Cn.telOwnerChanges +
        if s.board.fld Pg.tel F.telStatusOwner = Mg.arg d 0 1 then 0 else 1) % 2 ^ 64 ∧ { t with board := s.board } = s ∧
      s.board.Keeps t.board ((Pg.tel, 0x010) :: mgmtRegs ++ evs [Pg.tel]) ((Pg.tel, Cn.telOwnerChanges) :: mgmtCnts ++ logCnts)
        [.mgmt (Mg.manager d) 5 0 (Mg.seq d) []])) ∧
    (s.authentic d 8 → Completes (.subscribe d) s (fun t => s.answered t d 0 [] [] ∧ (Mg.manager d ∈ t.mgmt.subscribed ↔ Mg.arg d 0 1 = 1) ∧
      (∀ m, m ≠ Mg.manager d → (m ∈ t.mgmt.subscribed ↔ m ∈ s.mgmt.subscribed)) ∧
      { t with board := s.board, mgmt := { t.mgmt with subscribed := s.mgmt.subscribed } } = s ∧
      s.board.Keeps t.board mgmtRegs mgmtCnts [.mgmt (Mg.manager d) 8 0 (Mg.seq d) []])) ∧
    (∀ op, (op = 0 ∨ 10 ≤ op) → s.authentic d op → Completes (.unknownMgmtOp d) s (fun t => s.answered t d 4 [] [] ∧ { t with board := s.board } = s ∧
      s.board.Keeps t.board mgmtRegs [] [.mgmt (Mg.manager d) op 4 (Mg.seq d) []]))

/-- R436, R432: what an authentic datagram reads or writes: READ_REG the registers of a page, READ_MEM memory that R172 lets it read, in
SERVICE and HELD only, and REMOTE_ACCESS memory while RACK_ACCESS_EN is 1. -/
def Obligations.ManagersReadAndWrite : Prop :=
  ∀ (s : State) (d : Bytes),
    let u := s.onBoard (fun b => b.wr64 Pg.tel F.telMgmtSeqLoSeq.off (Mg.seq d))
    let page := Mg.arg d 0 2
    let off := Mg.arg d 2 2
    let words := Mg.arg d 4 1
    let a := Mg.arg d 0 8
    let n := Mg.arg d 8 2
    (s.authentic d 6 → 0 < words → words ≤ 64 → off % 4 = 0 → off + 4 * words ≤ 4096 → page < 1024 →
      (∀ i < words, s.volatile page (off + 4 * i) = false) →
      Completes (.readReg d) s (fun t => s.answered t d 0 ((List.range words).flatMap (fun i => toLE 4 (u.regValue page (off + 4 * i)))) [] ∧
        { t with board := s.board } = s ∧ s.board.Keeps t.board mgmtRegs mgmtCnts (t.board.msgs.drop s.board.msgs.length))) ∧
    (s.authentic d 6 → (words = 0 ∨ 64 < words ∨ off % 4 ≠ 0 ∨ 4096 < off + 4 * words ∨ 1024 ≤ page) →
      Completes (.readReg d) s (fun t => s.answered t d 3 [] [] ∧ { t with board := s.board } = s)) ∧
    (s.authentic d 7 → s.memStates = true → 64 ≤ n → n ≤ 1024 → n % 64 = 0 → s.isOwnRack a = true → s.readable (a % 2 ^ 52) n = true →
      s.rangeOn (a % 2 ^ 52) n = true →
      Completes (.readMem d) s (fun t => s.answered t d 0 (s.rdBytes (a % 2 ^ 52) n) [] ∧ { t with board := s.board } = s ∧
        s.board.Keeps t.board mgmtRegs mgmtCnts (t.board.msgs.drop s.board.msgs.length))) ∧
    (s.authentic d 7 → s.memStates = false → Completes (.readMem d) s (fun t => s.answered t d 3 [] [] ∧ { t with board := s.board } = s)) ∧
    (s.authentic d 9 → s.memStates = true → s.board.flag Pg.tel F.telControlRackAccessEn = true → Mg.arg d 10 1 = 0 → 0 < n → n ≤ 1024 →
      s.isOwnRack a = true → s.readable (a % 2 ^ 52) n = true → s.rangeOn (a % 2 ^ 52) n = true →
      Completes (.remoteAccess d) s (fun t => s.answered t d 0 (s.rdBytes (a % 2 ^ 52) n) [] ∧ { t with board := s.board } = s ∧
        s.board.Keeps t.board mgmtRegs ((Pg.tel, Cn.telBar2Reads) :: mgmtCnts) (t.board.msgs.drop s.board.msgs.length))) ∧
    (s.authentic d 9 → s.memStates = true → s.board.flag Pg.tel F.telControlRackAccessEn = true → Mg.arg d 10 1 = 1 → 0 < n → n ≤ 256 →
      s.isOwnRack a = true → s.writablePages (a % 2 ^ 52) n = true → s.rangeOn (a % 2 ^ 52) n = true →
      Completes (.remoteAccess d) s (fun t => s.answered t d 0 [] [] ∧ (∀ i < n, memByte t.mem (a % 2 ^ 52 + i) = d.getD (96 + i) 0) ∧
        (∀ x, (x < a % 2 ^ 52 ∨ a % 2 ^ 52 + n ≤ x) → memByte t.mem x = memByte s.mem x) ∧ { t with board := s.board, mem := s.mem } = s ∧
        s.board.Keeps t.board mgmtRegs ((Pg.tel, Cn.telBar2Writes) :: mgmtCnts) (t.board.msgs.drop s.board.msgs.length))) ∧
    (s.authentic d 9 → s.memStates = true → s.board.flag Pg.tel F.telControlRackAccessEn = false →
      Completes (.remoteAccess d) s (fun t => s.answered t d 3 [] [] ∧ { t with board := s.board } = s ∧
        t.board.cnt Pg.tel Cn.telBar2Errors = (s.board.cnt Pg.tel Cn.telBar2Errors + 1) % 2 ^ 64))

/-- R464, R463, R453, R434: the first row of the table that applies settles a BAR0 write: an absent unit ignores it; a link that does not own
the module has it discarded with cause 3, a unit that is powered off with cause 6; a read-only register ignores it, and so does a reserved one
for the value 0, while another value is discarded with cause 4. A width error is discarded with cause 5. -/
def Obligations.WritesAreGated : Prop :=
  ∀ (s : State) (l : Link) (page off v : Nat), s.answers = true → page < 1024 → off < 4096 → off % 4 = 0 → v < 2 ^ 32 → isMsix page = false →
    (page = Pg.opq0 → off < 0x100) →
    let c : Instr := .registerWrite l (4096 * page + off) 4 v
    let discarded := fun (cause : Nat) (t : State) => { t with board := s.board } = s ∧
      t.board.fld Pg.mod F.modAccessLastPage = page ∧ t.board.fld Pg.mod F.modAccessLastWord = off / 4 ∧
      t.board.fld Pg.mod F.modAccessLastCause = cause ∧ t.board.fld Pg.mod F.modAccessLastSource = linkIdx l ∧
      t.board.cnt Pg.mod Cn.modAccessErrors = (s.board.cnt Pg.mod Cn.modAccessErrors + 1) % 2 ^ 64 ∧
      t.board.evBit Pg.mod F.modEventAccessError.lsb = true ∧
      s.board.Keeps t.board ((Pg.mod, F.modAccessLastPage.off) :: evs [Pg.mod]) ([(Pg.mod, Cn.modAccessErrors), (Pg.mod, Cn.modBar0Writes)] ++ logCnts) []
    let k := pageKindOf page
    (k ≠ .reserved → s.present page = false → Completes c s (fun t => t = s.counted)) ∧
    ((s.present page = true ∨ k = .reserved) → freeTarget page off = false → s.board.owner ≠ some (linkIdx l) → Completes c s (discarded 3)) ∧
    (k ≠ .reserved → s.present page = true → s.board.owner = some (linkIdx l) → s.powered page = false → Completes c s (discarded 6)) ∧
    (s.mayWrite l page → wordSort k off = .readOnly → Completes c s (fun t => t = s.counted)) ∧
    ((s.mayWrite l page ∨ (k = .reserved ∧ s.board.owner = some (linkIdx l) ∧ s.board.flag Pg.pwr F.pwrGlobalStatusFlushing = false)) →
      wordSort k off = .reserved → (v = 0 → Completes c s (fun t => t = s.counted)) ∧ (v ≠ 0 → Completes c s (discarded 4))) ∧
    (∀ len, len ≠ 4 → ¬(len = 8 ∧ off % 8 = 0) →
      Completes (.registerWrite l (4096 * page + off) len v) s (discarded 5)) ∧
    (∀ o < 4, o ≠ 0 → ∀ len, Completes (.registerWrite l (4096 * page + off + o) len v) s (fun t => t.board.fld Pg.mod F.modAccessLastCause = 5 ∧
      { t with board := s.board } = s))

/-- R9, R463, R464, R465: a write that reaches a writable register stores each RW and RWB field whose own rule allows it; a field that may not
change, or whose value its rule forbids, keeps its bits, with an access error of cause 7, 1 or 2; nonzero reserved bits are dropped and
reported as a level event. -/
def Obligations.RegistersStoreTheirFields : Prop :=
  ∀ (s : State) (l : Link) (page off v : Nat), s.mayWrite l page → page < 1024 → off < 4096 → off % 4 = 0 → v < 2 ^ 32 → isMsix page = false →
    wordSort (pageKindOf page) off = .writable → isCommand (pageKindOf page) off = false → off ∉ [evtOff, evtEnOff] →
    pageKindOf page ∉ [.hb, .trc] → ¬(pageKindOf page = .opq ∧ (off - 0x100) % 64 = 0x24) →
    let k := pageKindOf page
    let locked := s.ctxLocked page off v
    let shut := if s.rwbState then 0 else rwbBits k off
    let bad := s.dropped page off v
    let cause := if locked ≠ 0 then 7 else if shut ≠ 0 then 1 else if bad ≠ 0 then 2 else 0
    Completes (.registerWrite l (4096 * page + off) 4 v) s (fun t =>
      (∀ i < 32, (t.board.rd page off).getLsbD i =
        if (storedBits k off).testBit i && !(locked ||| shut ||| bad ||| (s.pinLater page off v).1).testBit i then v.testBit i
        else (s.board.rd page off).getLsbD i) ∧
      (cause ≠ 0 → t.board.fld Pg.mod F.modAccessLastPage = page ∧ t.board.fld Pg.mod F.modAccessLastWord = off / 4 ∧
        t.board.fld Pg.mod F.modAccessLastCause = cause ∧ t.board.evBit Pg.mod F.modEventAccessError.lsb = true) ∧
      t.board.cnt Pg.mod Cn.modAccessErrors = (s.board.cnt Pg.mod Cn.modAccessErrors + if cause = 0 then 0 else 1) % 2 ^ 64 ∧
      (reservedBits k off v ≠ 0 → t.board.fld Pg.mod F.modLevelLastPage = page ∧ t.board.fld Pg.mod F.modLevelLastWord = off / 4 ∧
        t.board.fld Pg.mod F.modLevelMaskBits = reservedBits k off v ∧ t.board.evBit Pg.mod F.modEventLevelWrite.lsb = true) ∧
      t.board.cnt Pg.mod Cn.modLevelWrites = (s.board.cnt Pg.mod Cn.modLevelWrites + if reservedBits k off v = 0 then 0 else 1) % 2 ^ 64 ∧
      (k ∉ [.opq, .tk, .fabSpine, .pwrGlobal] → { t with board := s.board } = s ∧
        ({ s.board with latch := t.board.latch } : Board).Keeps t.board ((page, off) :: hostRegs) hostCnts []))

/-- R445, R462, R479, R380: a W1C write to EVENT clears each bit written as 1 whose class is not C; a class C bit clears while the class C ring
has a free slot, and stays, with the write counted, while it has none. It acts during a flush too. No other bit changes. R478: when HOLDOFF ends, vector 0 goes to the
owning link if a rise was held back and a page is still pending, and not otherwise. -/
def Obligations.EventBitsClear : Prop :=
  (∀ (s : State) (l : Link) (page : Nat) (v : Word), s.answers = true → s.present page = true → s.powered page = true →
    s.board.owner = some (linkIdx l) → page < 1024 → isMsix page = false → wordSort (pageKindOf page) evtOff = .writable →
    (page ∉ [Pg.mod, Pg.trc] ∨ reservedBits (pageKindOf page) evtOff v.toNat = 0) →
    Completes (.eventW1c l page v) s (fun t =>
      let full := ringCMax ≤ s.board.ringC.recs.length
      (∀ i < 16, t.board.evBit page i = (s.board.evBit page i && !(v.getLsbD i && !decide (full ∧ s.board.classOf page i = 3)))) ∧
      (full → (∃ i < 16, v.getLsbD i = true ∧ s.board.evBit page i = true ∧ s.board.classOf page i = 3) →
        t.board.cnt Pg.trc Cn.trcCClearDeferred = (s.board.cnt Pg.trc Cn.trcCClearDeferred + 1) % 2 ^ 64) ∧
      { t with board := s.board } = s ∧ s.board.Keeps t.board ((page, evtOff) :: hostRegs) hostCnts [])) ∧
  (∀ s : State, s.board.holding = true →
    (∀ l, s.board.owner = some (linkIdx l) → s.board.heldBack = true → s.board.anyPending = true → (s.board.msixRd (linkIdx l) false 12).getLsbD 0 = false →
      Completes .evtHoldoffExpiry s (fun t => t.board.out = s.board.out ++ [.vector (linkIdx l) 0] ∧ t.board.heldBack = false ∧
        (t.board.holding = true ↔ s.board.fld Pg.evt F.evtHoldoffUs ≠ 0) ∧ { t with board := s.board } = s ∧ s.board.Keeps t.board [] [] [])) ∧
    ((s.board.heldBack = false ∨ s.board.anyPending = false) →
      Completes .evtHoldoffExpiry s (fun t => t = s.onBoard (fun b => { b with holding := false, heldBack := false }))))

/-- R453, R455, R393: a BAR0 read of 4 aligned bytes answers the register's value, of 8 aligned bytes two registers, the lower offset first; a
read of a 64-bit register's low word latches the high word, and the next read of that returns what was latched; another width answers all ones
with an access error of cause 5, and a module whose ACLK has stopped answers all ones. -/
def Obligations.ReadsAnswer : Prop :=
  ∀ (s : State) (l : Link) (page off : Nat), s.board.st ≠ St.off → page < 1024 → off < 4096 → off % 4 = 0 → isMsix page = false →
    let k := pageKindOf page
    let none' := fun (_ : Nat) => (none : Option Word)
    let key := fun (o : Nat) => latchKey (linkIdx l) page o
    let u := s.onBoard (fun b => b.inc Pg.mod Cn.modBar0Reads 1)
    (s.aclkStopped = true → ∀ len, Completes (.bar0Read l (4096 * page + off) len) s (fun t => t = s.onBoard (fun b => b.emit (.bar0 (linkIdx l) (2 ^ (8 * len) - 1))))) ∧
    (s.aclkStopped = false → isLow k off = false → Tbl.get none' s.board.latch (key off) = none → s.volatile page off = false →
      Completes (.bar0Read l (4096 * page + off) 4) s (fun t => { t with board := s.board } = s ∧
        s.board.Keeps t.board [] [(Pg.mod, Cn.modBar0Reads)] [.bar0 (linkIdx l) (u.regValue page off)] ∧ s.board.Silent t.board)) ∧
    (s.aclkStopped = false → isLow k off = true → ∀ c, (c = .bar0Read l (4096 * page + off) 4 ∨ c = .lowWordRead l page off) →
      Completes c s (fun t => { t with board := s.board } = s ∧ t.board.latch = Tbl.set none' s.board.latch (key (off + 4)) (some (BitVec.ofNat 32 (u.regValue page (off + 4)))) ∧
        ({ s.board with latch := t.board.latch } : Board).Keeps t.board [] [(Pg.mod, Cn.modBar0Reads)] [.bar0 (linkIdx l) (u.regValue page off)])) ∧
    (s.aclkStopped = false → isLow k off = false → ∀ w, Tbl.get none' s.board.latch (key off) = some w →
      Completes (.bar0Read l (4096 * page + off) 4) s (fun t => { t with board := s.board } = s ∧ Tbl.get none' t.board.latch (key off) = none ∧
        ({ s.board with latch := t.board.latch } : Board).Keeps t.board [] [(Pg.mod, Cn.modBar0Reads)] [.bar0 (linkIdx l) w.toNat])) ∧
    (s.aclkStopped = false → isLow k off = true → off % 8 = 0 → isLow k (off + 4) = false →
      Completes (.bar0Read l (4096 * page + off) 8) s (fun t => { t with board := s.board } = s ∧
        t.board.msgs = s.board.msgs ++ [.bar0 (linkIdx l) (u.regValue page off + 2 ^ 32 * (u.regValue page (off + 4) % 2 ^ 32))])) ∧
    (s.aclkStopped = false → ∀ len, len ≠ 4 → len ≠ 8 →
      Completes (.bar0Read l (4096 * page + off) len) s (fun t => { t with board := s.board } = s ∧
        t.board.fld Pg.mod F.modAccessLastPage = page ∧ t.board.fld Pg.mod F.modAccessLastCause = 5 ∧
        t.board.cnt Pg.mod Cn.modAccessErrors = (s.board.cnt Pg.mod Cn.modAccessErrors + 1) % 2 ^ 64 ∧
        s.board.Keeps t.board ((Pg.mod, F.modAccessLastPage.off) :: evs [Pg.mod]) ([(Pg.mod, Cn.modAccessErrors), (Pg.mod, Cn.modBar0Reads)] ++ logCnts)
          [.bar0 (linkIdx l) 0xFFFFFFFF]))

/-- R322, R209, R9: a TK.PERIOD that is a multiple of 1,024 from 4,096 to 163,840 is stored outside SERVICE, and before the first SERVICE it
restarts a running grid; a FAB.SPLIT whose classes are nonzero and sum to 16 is stored with the pattern and the bound that follow from it;
another value is discarded with cause 2, and any value in SERVICE with cause 1. -/
def Obligations.PeriodAndSplitFollowTheirRules : Prop :=
  ∀ (s : State) (l : Link) (v : Word),
    let n := v.toNat
    let frame := fun (rs : List (Nat × Nat)) (t : State) => ({ s.board with latch := t.board.latch } : Board).Keeps t.board (rs ++ hostRegs) hostCnts []
    let refused := fun (cause : Nat) (t : State) => t.board.fld Pg.mod F.modAccessLastCause = cause ∧
      t.board.evBit Pg.mod F.modEventAccessError.lsb = true ∧ { t with board := s.board } = s ∧ frame [] t
    (s.mayWrite l Pg.tk → n < 2 ^ 18 →
      (s.rwbState = true → n % 1024 = 0 → 4096 ≤ n → n ≤ 163840 → Completes (.tkPeriodWrite l v) s (fun t =>
        t.board.fld Pg.tk F.tkPeriodCycles = n ∧ { t with board := s.board, bup := { t.bup with regrid := s.bup.regrid } } = s ∧
        (t.bup.regrid = true ↔ s.bup.regrid = true ∨ (t.board.rd Pg.tk 0x100 ≠ s.board.rd Pg.tk 0x100 ∧ s.gridRuns = true ∧ s.bup.served = false ∧ s.crown.follows = false)) ∧
        frame [(Pg.tk, 0x100)] t)) ∧
      (s.rwbState = true → (n % 1024 ≠ 0 ∨ n < 4096 ∨ 163840 < n) → Completes (.tkPeriodWrite l v) s (refused 2)) ∧
      (s.rwbState = false → Completes (.tkPeriodWrite l v) s (refused 1))) ∧
    (s.mayWrite l Pg.fabSpine → ∀ r w m, r < 32 → w < 32 → m < 32 → n = r + 256 * w + 65536 * m →
      (s.rwbState = true → 0 < r → 0 < w → 0 < m → r + w + m = 16 → Completes (.splitWrite l v) s (fun t =>
        t.board.fld Pg.fabSpine F.fabSpineSplitRead = r ∧ t.board.fld Pg.fabSpine F.fabSpineSplitWrite = w ∧
        t.board.fld Pg.fabSpine F.fabSpineSplitRemote = m ∧ t.board.fld Pg.fabSpine F.fabSpinePatternSlots = patternWord (slotPattern r w m) ∧
        t.board.fld Pg.fabSpine F.fabSpineLatBoundCycles = latBound r w m ∧ { t with board := s.board } = s ∧
        frame [(Pg.fabSpine, 0x100), (Pg.fabSpine, F.fabSpinePatternSlots.off), (Pg.fabSpine, F.fabSpineLatBoundCycles.off)] t)) ∧
      (s.rwbState = true → (r = 0 ∨ w = 0 ∨ m = 0 ∨ r + w + m ≠ 16) → Completes (.splitWrite l v) s (refused 2)) ∧
      (s.rwbState = false → Completes (.splitWrite l v) s (refused 1)))

/-- R471 to R474: REVOKE of a hood or licence slot is for good; KEY_DATA stages up to eight words, CLEAR empties them, INSTALL takes eight words
as the management slot's key, the one before it staying valid until its grace ends, and is refused with cause 1 or 2 otherwise. -/
def Obligations.KeysAreStagedAndInstalled : Prop :=
  ∀ (s : State) (l : Link), s.mayWrite l Pg.lic → s.store.keys.length = 8 → s.store.oldKeys.length = 2 →
    (∀ n < 6, Completes (.revoke l n) s (fun t => (∃ k, t.store.keys[n]? = some k ∧ k.revoked = true) ∧
      t.board.flag Pg.lic (F.licSlotEnabled n) = false ∧ t.board.flag Pg.lic (F.licSlotRevoked n) = true ∧
      t.board.evBit Pg.lic F.licEventKeyRevoked.lsb = true ∧ (∀ m, m ≠ n → t.store.keys[m]? = s.store.keys[m]?) ∧
      { t with board := s.board, store := { t.store with keys := s.store.keys } } = s ∧
      s.board.Keeps t.board ((Pg.lic, 0x100 + 8 * n) :: evs [Pg.lic]) hostCnts [])) ∧
    (∀ n, 6 ≤ n → n < 8 → Completes (.revoke l n) s (fun t => t.board.fld Pg.mod F.modAccessLastCause = 2 ∧ { t with board := s.board } = s ∧
      s.board.Keeps t.board hostRegs hostCnts [])) ∧
    (∀ v : Word, s.mgmt.keyWords.length < 8 → Completes (.keyData l v) s (fun t => t.mgmt.keyWords = s.mgmt.keyWords ++ [v] ∧
      t.board.fld Pg.lic F.licKeyStatusWords = s.mgmt.keyWords.length + 1 ∧
      { t with board := s.board, mgmt := { t.mgmt with keyWords := s.mgmt.keyWords } } = s ∧ s.board.Keeps t.board [(Pg.lic, 0x14C)] hostCnts [])) ∧
    (∀ v : Word, 8 ≤ s.mgmt.keyWords.length → Completes (.keyData l v) s (fun t => t.board.fld Pg.mod F.modAccessLastCause = 2 ∧
      { t with board := s.board } = s ∧ s.board.Keeps t.board hostRegs hostCnts [])) ∧
    Completes (.keyClear l) s (fun t => t.mgmt.keyWords = [] ∧ t.board.fld Pg.lic F.licKeyStatusWords = 0 ∧
      { t with board := s.board, mgmt := { t.mgmt with keyWords := s.mgmt.keyWords } } = s ∧ s.board.Keeps t.board [(Pg.lic, 0x14C)] hostCnts []) ∧
    (let n := 6 + s.board.fld Pg.lic F.licKeySelManager
     (s.mgmt.keyWords.length = 8 → s.shelfBusy = false → Completes (.install l) s (fun t =>
       t.store.keys[n]? = some ⟨s.mgmt.keyWords.flatMap (fun w => toLE 4 w.toNat), false⟩ ∧ (∀ m, m ≠ n → t.store.keys[m]? = s.store.keys[m]?) ∧
       (s.key n ≠ [] → t.store.oldKeys[n - 6]? = some (some (s.key n))) ∧ t.mgmt.keyWords = [] ∧
       t.board.flag Pg.lic (F.licSlotEnabled n) = true ∧ t.board.fld Pg.lic F.licKeyStatusCause = 0 ∧ t.board.fld Pg.lic F.licKeyStatusWords = 0 ∧
       t.board.evBit Pg.lic F.licEventKeyInstalled.lsb = true ∧
       { t with board := s.board, store := { t.store with keys := s.store.keys, oldKeys := s.store.oldKeys }, mgmt := { t.mgmt with keyWords := s.mgmt.keyWords } } = s ∧
       s.board.Keeps t.board ([(Pg.lic, 0x100 + 8 * n), (Pg.lic, 0x14C)] ++ evs [Pg.lic]) hostCnts [])) ∧
     ((s.mgmt.keyWords.length ≠ 8 ∨ s.shelfBusy = true) → Completes (.install l) s (fun t =>
       t.board.fld Pg.lic F.licKeyStatusCause = (if s.mgmt.keyWords.length ≠ 8 then 1 else 2) ∧ { t with board := s.board } = s ∧
       s.board.Keeps t.board [(Pg.lic, 0x14C)] hostCnts []))) ∧
    (∀ n, (n = 6 ∨ n = 7) → Completes (.keyGraceExpiry n) s (fun t => t.store.oldKeys[n - 6]? = some none ∧
      (∀ m, m ≠ n - 6 → t.store.oldKeys[m]? = s.store.oldKeys[m]?) ∧ { t with store := { t.store with oldKeys := s.store.oldKeys } } = s))

/-- R439, R440: at a grid point that telemetry is due, the frame goes into its ring slot, with vector 18, when the ring has room and its pages
are writable; else it is dropped and counted. Every subscribed manager gets it. Its first bytes are the grid point's GTC, the tick and the state. -/
def Obligations.TelemetryFrames : Prop :=
  ∀ s : State, s.gridRuns = true → s.board.fld Pg.tel F.telFrameCfgDecimate ≤ s.mgmt.sinceFrame →
    let base := 512 * s.board.fld Pg.tel F.telRingBaseLoAddr + 2 ^ 32 * s.board.fld Pg.tel F.telRingBaseHiAddr
    let size := 2 ^ s.board.fld Pg.tel F.telFrameCfgRingLog2
    let wi := s.board.fld Pg.tel F.telRingIndexWi
    let room := s.board.flag Pg.tel F.telControlFrameEn && decide (idxSub wi (s.board.fld Pg.tel F.telRingIndexRi) ≠ size) && s.writablePages base (512 * size)
    let slot := base + 512 * (wi % size)
    let same := fun (t : State) => t.mgmt.frameSeq = s.mgmt.frameSeq + 1 ∧ t.mgmt.sinceFrame = 0 ∧ t.mgmt.prev = s.board.snap ∧ t.mgmt.lowSlack = [] ∧
      { t with board := s.board, mem := s.mem, freeCtr := s.freeCtr,
               mgmt := { t.mgmt with frameSeq := s.mgmt.frameSeq, sinceFrame := s.mgmt.sinceFrame, prev := s.mgmt.prev, lowSlack := s.mgmt.lowSlack } } = s
    (room = true → Completes .telemetryFrame s (fun t => same t ∧ t.board.fld Pg.tel F.telRingIndexWi = (wi + 1) % 2 ^ 16 ∧
      leAt (memRead t.mem slot 512) 0 8 = s.gridPoint s.crown.tick % 2 ^ 64 ∧ leAt (memRead t.mem slot 512) 8 8 = s.crown.tick % 2 ^ 64 ∧
      leAt (memRead t.mem slot 512) 16 1 = s.board.st ∧ (∀ x, (x < slot ∨ slot + 512 ≤ x) → memByte t.mem x = memByte s.mem x) ∧
      ∃ q frame, s.board.Keeps t.board [(Pg.tel, F.telRingIndexWi.off)] [(Pg.tel, Cn.telFramesWritten)] (s.mgmt.subscribed.map (fun m => .mgmt m 8 0 q frame)) ∧
        frame = memRead t.mem slot 512)) ∧
    (room = false → Completes .telemetryFrame s (fun t => same t ∧ t.mem = s.mem ∧
      t.board.cnt Pg.tel Cn.telFramesDropped = (s.board.cnt Pg.tel Cn.telFramesDropped + 1) % 2 ^ 64 ∧
      t.board.evBit Pg.tel F.telEventFrameDropped.lsb = true ∧
      ∃ q frame, s.board.Keeps t.board (evs [Pg.tel]) ((Pg.tel, Cn.telFramesDropped) :: logCnts) (s.mgmt.subscribed.map (fun m => .mgmt m 8 0 q frame))))

/-! ### Memory tiers and migration (06_memory_tiers) -/

/-- R188, R496, R187: a memory command that its table refuses completes at once with its cause and maps nothing; a full queue discards a
further command and counts it; a command behind one that runs waits. -/
def Obligations.MemoryCommandsAreRefused : Prop :=
  ∀ (s : State) (l : Link),
    let refused := fun (op cause : Nat) (t : State) => s.cmdEnded t op cause ∧ t.tier = { s.tier with cmdFrames := [] } ∧
      { t with board := s.board, tier := s.tier, freeCtr := s.freeCtr } = s ∧
      s.board.Keeps t.board (memRegs ++ evs [Pg.shf]) hostCnts []
    (s.memReady l →
      (∀ op c, (op, c) ∈ [(1, .alloc l), (2, .free l), (4, .mapRemote l)] →
        let m := s.memCmd op
        (s.cmdInSlice (m.a0 % 256) m.a1 m.a2 = false → Completes c s (refused op Cause.address)) ∧
        (op ≠ 2 → (cmdPages m).any (fun p => (s.tier.entry p).valid) = true → Completes c s (refused op Cause.address)) ∧
        (op = 2 → (cmdPages m).all (fun p => (s.tier.entry p).valid) = false → Completes c s (refused op Cause.address)) ∧
        (op = 4 → 2 ^ 28 < m.a3 % 2 ^ 28 + m.a2 → Completes c s (refused op Cause.address))) ∧
      (let m := s.memCmd 1
       s.cmdInSlice (m.a0 % 256) m.a1 m.a2 = true → (cmdPages m).any (fun p => (s.tier.entry p).valid) = false →
        s.board.fld Pg.mem F.memFramesT0FreeFrames < m.a2 → Completes (.alloc l) s (refused 1 Cause.tierFull)) ∧
      (s.cstate ((s.memCmd 3).a0 % 256) ∉ [Cs.ready, Cs.running, Cs.stalled] → Completes (.loadHood l) s (refused 3 Cause.ctxState)) ∧
      (s.shelfLocked = true → Completes (.installHood l) s (fun t => refused 5 Cause.shelfRefused t ∧ t.board.evBit Pg.shf F.shfEventShelfRefused.lsb = true) ∧
        Completes (.eraseHood l) s (fun t => refused 6 Cause.shelfRefused t ∧ t.board.evBit Pg.shf F.shfEventShelfRefused.lsb = true)) ∧
      (s.shelfLocked = false → (s.tier.entry (s.memCmd 5).a1).valid = true → (s.tier.entry (s.memCmd 5).a1).sealed = false →
        Completes (.installHood l) s (refused 5 Cause.notSealed)) ∧
      (∀ op, (op = 0 ∨ (7 ≤ op ∧ op ≤ 15)) → Completes (.undefinedMemCmd l op) s (refused op Cause.parameter))) ∧
    (s.mayWrite l Pg.mem → ∀ op c, (op, c) ∈ [(1, .alloc l), (2, .free l), (3, .loadHood l), (4, .mapRemote l), (5, .installHood l), (6, .eraseHood l)] →
      (16 ≤ s.tier.cmdQ.length → Completes c s (fun t => { t with board := s.board } = s ∧
        t.board.cnt Pg.mem Cn.memCmdDiscards = (s.board.cnt Pg.mem Cn.memCmdDiscards + 1) % 2 ^ 64 ∧
        s.board.Keeps t.board [] ((Pg.mem, Cn.memCmdDiscards) :: hostCnts) [])) ∧
      (s.tier.cmdQ.length < 16 → s.tier.cmdRun ≠ none → Completes c s (fun t =>
        { t with board := s.board } = { s with tier := { s.tier with cmdQ := s.tier.cmdQ ++ [s.memCmd op] } } ∧
        t.board.fld Pg.mem F.memStatusCmdQueued = s.tier.cmdQ.length + 1 ∧ s.board.Keeps t.board [(Pg.mem, 0x010)] hostCnts [])))

/-- R188, R179, R496, R189: an ALLOC takes frames and, at its completion, maps its pages writable and zero-filled; a FREE unmaps its pages; a
MAP_REMOTE maps its pages as one sealed object of remote pages. Every other page keeps its entry, every other byte its value. -/
def Obligations.MemoryCommandsMapPages : Prop :=
  ∀ (s : State) (l : Link),
    (s.memReady l →
      (let m := s.memCmd 1
       s.cmdInSlice (m.a0 % 256) m.a1 m.a2 = true → (cmdPages m).any (fun p => (s.tier.entry p).valid) = false →
        m.a2 ≤ s.board.fld Pg.mem F.memFramesT0FreeFrames →
        Completes (.alloc l) s (fun t => t.tier.cmdRun = some m ∧ t.tier.cmdFrames = (s.takeFrames m.a2).1 ∧ t.tier.map = s.tier.map ∧ t.mem = s.mem ∧
          t.board.flag Pg.mem F.memStatusCmdBusy = true ∧ { t with board := s.board, tier := s.tier } = s)) ∧
      (∀ op c, (op, c) ∈ [(2, .free l), (4, .mapRemote l)] →
        let m := s.memCmd op
        s.cmdInSlice (m.a0 % 256) m.a1 m.a2 = true → (op = 2 → (cmdPages m).all (fun p => (s.tier.entry p).valid) = true) →
        (op = 4 → (cmdPages m).any (fun p => (s.tier.entry p).valid) = false ∧ m.a3 % 2 ^ 28 + m.a2 ≤ 2 ^ 28) →
        Completes c s (fun t => t.tier.cmdRun = some m ∧ t.tier.map = s.tier.map ∧ t.board.flag Pg.mem F.memStatusCmdBusy = true ∧
          { t with board := s.board, tier := s.tier } = s ∧ s.board.Keeps t.board [(Pg.mem, 0x010)] hostCnts []))) ∧
    (∀ m : MemCmd, s.tier.cmdRun = some m → s.tier.cmdQ = [] →
      (m.op = 1 → s.tier.cmdFrames.length = m.a2 → (∀ p, m.a1 ≤ p → p < m.a1 + m.a2 → (s.tier.entry p).valid = false) →
        Completes .memCmdComplete s (fun t => s.cmdEnded t 1 0 ∧ t.board.fld Pg.mem F.memCmdTagTag = m.a3 % 2 ^ 32 ∧
          (∀ i < m.a2, t.tier.entry (m.a1 + i) = { PageEntry.none with valid := true, writable := true, ctx := m.a0 % 256, frame := s.tier.cmdFrames.getD i 0 }) ∧
          (∀ p, (p < m.a1 ∨ m.a1 + m.a2 ≤ p) → t.tier.entry p = s.tier.entry p) ∧
          (∀ a, m.a1 ≤ pageOf a → pageOf a < m.a1 + m.a2 → memByte t.mem a = 0) ∧
          (∀ a, (pageOf a < m.a1 ∨ m.a1 + m.a2 ≤ pageOf a) → memByte t.mem a = memByte s.mem a) ∧
          { t with board := s.board, tier := s.tier, mem := s.mem } = s ∧ s.board.Keeps t.board memRegs logCnts [])) ∧
      (m.op = 2 → Completes .memCmdComplete s (fun t => s.cmdEnded t 2 0 ∧ t.board.fld Pg.mem F.memCmdTagTag = m.a3 % 2 ^ 32 ∧
          (∀ i < m.a2, t.tier.entry (m.a1 + i) = PageEntry.none) ∧ (∀ p, (p < m.a1 ∨ m.a1 + m.a2 ≤ p) → t.tier.entry p = s.tier.entry p) ∧
          (∀ f ∈ t.tier.fly, ¬(m.a1 ≤ f.page ∧ f.page < m.a1 + m.a2)) ∧ (∀ c ∈ t.tier.changes, ¬(m.a1 ≤ c.page ∧ c.page < m.a1 + m.a2)) ∧
          t.mem = s.mem ∧ { t with board := s.board, tier := s.tier } = s)) ∧
      (m.op = 4 → Completes .memCmdComplete s (fun t => s.cmdEnded t 4 0 ∧
          (∀ i < m.a2, t.tier.entry (m.a1 + i) =
            { PageEntry.none with tier := 3, valid := true, sealed := true, ctx := m.a0 % 256, frame := m.a3 + i, object := s.tier.nextObject }) ∧
          (∀ p, (p < m.a1 ∨ m.a1 + m.a2 ≤ p) → t.tier.entry p = s.tier.entry p) ∧ t.tier.nextObject = s.tier.nextObject + 1 ∧
          { t with board := s.board, tier := s.tier, freeCtr := s.freeCtr } = s ∧ s.board.Keeps t.board memRegs logCnts [])))

/-- R186, R187, R157, R191: LOAD_HOOD of a stored hood that is good and fits moves a READY context to LOADING, or waits for a RUNNING one; a bad
one is counted and fails with HOOD_INVALID. A load that ends moves its context to READY and, where a chunk is bad, maps nothing. INSTALL_HOOD
and ERASE_HOOD take effect on the shelf when they complete. -/
def Obligations.HoodsLoadInstallAndErase : Prop :=
  ∀ (s : State) (l : Link),
    (s.memReady l → ∀ h, s.hoodOf (s.memCmd 3).hoodId = some h →
      let m := s.memCmd 3
      let n := m.a0 % 256
      s.cstate n = Cs.ready → s.cmdInSlice n m.a1 h.chunks = true →
      Completes (.loadHood l) s (fun t =>
        (s.hoodGood h = true → (h.placement 0).length ≤ s.framesFree 0 + s.framesFree 1 → s.cmdEnded t 3 0 ∧
          t.board.fld Pg.mem F.memCmdTagTag = m.a0 / 256 ∧ t.cstate n = Cs.loading ∧ t.tier.loads = s.tier.loads ++ [⟨n, m.a0 / 256, h, m.a1⟩] ∧
          t.board.flag Pg.shf F.shfStatusLoading = true ∧ t.tier.map = s.tier.map ∧ t.mem = s.mem) ∧
        (s.hoodGood h = false → s.cmdEnded t 3 Cause.hoodInvalid ∧ t.cstate n = Cs.ready ∧ t.tier.map = s.tier.map ∧
          t.board.cnt Pg.shf Cn.shfHoodFails = (s.board.cnt Pg.shf Cn.shfHoodFails + 1) % 2 ^ 64 ∧ t.board.evBit Pg.shf F.shfEventHoodInvalid.lsb = true))) ∧
    (∀ ld rest, s.tier.loads = ld :: rest → s.cstate ld.ctx = Cs.loading → Completes .loadComplete s (fun t =>
      t.tier.loads = rest ∧ t.cstate ld.ctx = Cs.ready ∧ t.board.flag Pg.shf F.shfStatusLoading = !rest.isEmpty ∧
      t.board.cnt Pg.shf Cn.shfReadBytes = (s.board.cnt Pg.shf Cn.shfReadBytes + ld.hood.image.length) % 2 ^ 64 ∧
      (ld.hood.chunksGood = false → t.tier.map = s.tier.map ∧ t.board.evBit Pg.shf F.shfEventHoodInvalid.lsb = true ∧
        t.board.cnt Pg.shf Cn.shfHoodFails = (s.board.cnt Pg.shf Cn.shfHoodFails + 1) % 2 ^ 64) ∧
      (∀ obj pg f, ld.hood.chunksGood = true → ld.hood.placement s.tier.nextObject = [(obj, pg)] → s.freeFrame 0 = some f →
        t.tier.entry (ld.firstPage + pg) = { PageEntry.none with
          valid := true, sealed := true, homeValid := true, ctx := ld.ctx, frame := f, homeTier := 2, object := obj, homeFrame := ld.hood.shelfPage + pg } ∧
        t.board.cnt Pg.shf Cn.shfHoodsLoaded = (s.board.cnt Pg.shf Cn.shfHoodsLoaded + 1) % 2 ^ 64 ∧
        t.board.fld Pg.mem F.memFitT0PagesPages = 1 ∧ t.board.fld Pg.mem F.memFitT1PagesPages = 0))) ∧
    (s.memReady l → s.shelfLocked = false →
      (∀ h, s.hoodOf (s.memCmd 6).hoodId = some h → Completes (.eraseHood l) s (fun t => t.tier.cmdRun = some (s.memCmd 6) ∧
        { t with board := s.board, tier := { t.tier with cmdRun := s.tier.cmdRun, cmdFrames := s.tier.cmdFrames } } = s ∧
        s.board.Keeps t.board [(Pg.mem, 0x010)] hostCnts [])) ∧
      (let m := s.memCmd 5
       (s.tier.entry m.a1).valid = true → (s.tier.entry m.a1).sealed = true →
        (s.sourceImage m.a1).pages ≤ s.board.fld Pg.shf F.shfFreePagesPages →
        Completes (.installHood l) s (fun t => t.tier.cmdRun = some m ∧
          { t with board := s.board, tier := { t.tier with cmdRun := s.tier.cmdRun, cmdFrames := s.tier.cmdFrames } } = s ∧
          s.board.Keeps t.board [(Pg.mem, 0x010)] hostCnts []))) ∧
    (∀ m : MemCmd, s.tier.cmdRun = some m → s.tier.cmdQ = [] →
      (m.op = 5 → Completes .memCmdComplete s (fun t => s.cmdEnded t 5 0 ∧ t.board.fld Pg.mem F.memCmdTagTag = m.a3 % 2 ^ 32 ∧
        (∃ h, t.tier.hoods = s.tier.hoods.filter (fun g => !(g.id == h.id)) ++ [h] ∧ h.image = (s.sourceImage m.a1).image ∧
          t.board.cnt Pg.shf Cn.shfWriteBytes = (s.board.cnt Pg.shf Cn.shfWriteBytes + h.image.length) % 2 ^ 64) ∧
        { t with board := s.board, tier := s.tier } = s ∧ t.tier.map = s.tier.map)) ∧
      (m.op = 6 → Completes .memCmdComplete s (fun t => s.cmdEnded t 6 0 ∧ t.tier.hoods = s.tier.hoods.filter (fun g => !(g.id == m.hoodId)) ∧
        t.board.cnt Pg.shf Cn.shfErases = (s.board.cnt Pg.shf Cn.shfErases + 1) % 2 ^ 64 ∧
        { t with board := s.board, tier := s.tier, freeCtr := s.freeCtr } = s ∧ t.tier.map = s.tier.map)))

/-- R190, R195, R177: a page in flight that has landed switches its entry at the next boundary, not before: a promote keeps its source as the home
where it had none, a refetch keeps its home. R194, R201: pounce moves on by each unit's budget and counts the bytes it scrubs; a retired block and a corrected NAND error are counted and
reported as class A. -/
def Obligations.LandedPagesSwitchAtTheBoundary : Prop :=
  (∀ (s : State) (f : MigFly), s.tier.migQ = [] → s.tier.fly = [f] →
    let e := s.tier.entry f.page
    Completes (if f.refetch then .refetchDone f.page else .migrationPageDone f.page) s (fun t => t.tier.fly = [] ∧ t.tier.map = s.tier.map ∧
      (∃ x, t.tier.changes = s.tier.changes ++ [⟨f.page, x, !f.refetch⟩] ∧ x.tier = f.tier ∧ x.frame = f.frame ∧ x.valid = e.valid ∧ x.object = e.object ∧
        x.sealed = e.sealed ∧ x.writable = e.writable ∧ x.ctx = e.ctx ∧
        (f.refetch = false → f.tier = 0 → e.homeValid = false → x.homeValid = true ∧ x.homeTier = e.tier ∧ x.homeFrame = e.frame) ∧
        ((f.refetch = true ∨ f.tier ≠ 0 ∨ e.homeValid = true) → x.homeValid = e.homeValid ∧ x.homeTier = e.homeTier ∧ x.homeFrame = e.homeFrame)) ∧
      { t with board := s.board, tier := { t.tier with fly := s.tier.fly, changes := s.tier.changes } } = s ∧
      s.board.Keeps t.board [(Pg.mem, 0x010)] [] [] ∧ s.board.Silent t.board)) ∧
  (∀ s : State,
    (s.gridRuns = true → Completes .pounceScrub s (fun t =>
      t.tier.pounceWs = (s.tier.pounceWs + s.board.fld Pg.mem F.memPounceCfgWsUnits * 16384) % 2 ^ 27 ∧
      t.tier.pounceSlc = (s.tier.pounceSlc + s.board.fld Pg.mem F.memPounceCfgSlcUnits * 4096) % 2 ^ 26 ∧
      t.tier.pounceDrm = (s.tier.pounceDrm + s.board.fld Pg.mem F.memPounceCfgDrmUnits * 256) % (768 * 2 ^ 20) ∧
      (∀ k < 24, s.powered (Pg.slc k) = true → t.board.cnt (Pg.slc k) Cn.slcScrubBytes =
        (s.board.cnt (Pg.slc k) Cn.slcScrubBytes + 24 * (s.board.fld Pg.mem F.memPounceCfgSlcUnits * 4096)) % 2 ^ 64) ∧
      { t with board := s.board, tier := { t.tier with pounceWs := s.tier.pounceWs, pounceSlc := s.tier.pounceSlc, pounceDrm := s.tier.pounceDrm } } = s ∧
      s.board.Keeps t.board [] ((List.range 24).map (fun k => (Pg.slc k, Cn.slcScrubBytes)) ++ (List.range 96).map (fun k => (Pg.drm k, Cn.drmScrubBytes)) ++
        [(Pg.mem, Cn.memPouncePasses)]) [] ∧ s.board.Silent t.board)) ∧
    (s.powered Pg.shf = true → ∀ low, Completes (.blockRetired low) s (fun t => t.board.evBit Pg.shf F.shfEventBlockRetired.lsb = true ∧
      t.board.cnt Pg.shf Cn.shfBlocksRetired = (s.board.cnt Pg.shf Cn.shfBlocksRetired + 1) % 2 ^ 64 ∧
      (low = true → t.board.evBit Pg.shf F.shfEventSpareLow.lsb = true) ∧ { t with board := s.board, freeCtr := s.freeCtr } = s ∧
      s.board.Keeps t.board (evs [Pg.shf]) ([(Pg.shf, Cn.shfBlocksRetired), (Pg.shf, Cn.shfWearMoveBytes)] ++ logCnts) [])) ∧
    (s.powered Pg.shf = true → Completes .nandErrorCorrected s (fun t => t.board.evBit Pg.shf F.shfEventCe.lsb = true ∧
      { t with board := s.board } = s ∧ s.board.Keeps t.board (evs [Pg.shf]) logCnts [])))

/-- R195, R200, R393, R402: a corrected error is counted and scrubbed; an uncorrectable one in a sealed page with a home starts a refetch, in any other mapped
page it poisons the page and is a class B fault; a channel that stops answering is a class C fault and is logged. -/
def Obligations.MemoryErrorsAreHandled : Prop :=
  ∀ (s : State) (dram : Bool) (unit pos : Nat),
    let page := if dram then Pg.drm (unit / 32) else Pg.slc (unit / 24)
    s.powered page = true → unit < (if dram then 3072 else 576) →
    Completes (.memoryEccError dram unit pos false) s (fun t => { t with board := s.board } = s ∧
      t.board.cnt page (if dram then Cn.drmCeCount else Cn.slcCeCount) = (s.board.cnt page (if dram then Cn.drmCeCount else Cn.slcCeCount) + 1) % 2 ^ 64 ∧
      t.board.cnt page (if dram then Cn.drmScrubBytes else Cn.slcScrubBytes) = (s.board.cnt page (if dram then Cn.drmScrubBytes else Cn.slcScrubBytes) + 32) % 2 ^ 64 ∧
      t.board.evBit page 0 = true ∧
      s.board.Keeps t.board (evs [page]) ([(page, if dram then Cn.drmCeCount else Cn.slcCeCount), (page, if dram then Cn.drmScrubBytes else Cn.slcScrubBytes)] ++ logCnts) []) ∧
    (∀ f p, s.frameAt dram unit pos = some f → s.pageAt (b2n dram) f = some p → Tbl.get (fun _ => 0) s.tier.ueCount (b2n dram * 2 ^ 32 + f) = 0 →
      (((s.tier.entry p).sealed && (s.tier.entry p).homeValid) = true → s.tier.fly = [] →
        Completes (.memoryEccError dram unit pos true) s (fun t => t.board.evBit page 1 = true ∧ t.tier.map = s.tier.map ∧ t.mem = s.mem ∧
          (∃ g, t.tier.fly = [⟨p, b2n dram, g, true⟩]) ∧ t.board.cnt Pg.mem Cn.memRefetches = (s.board.cnt Pg.mem Cn.memRefetches + 1) % 2 ^ 64 ∧
          { t with board := s.board, tier := s.tier } = s)) ∧
      (((s.tier.entry p).sealed && (s.tier.entry p).homeValid) = false →
        Completes (.memoryEccError dram unit pos true) s (fun t => t.board.evBit page 1 = true ∧ t.board.evBit Pg.mem F.memEventPageLost.lsb = true ∧
          t.tier.entry p = { s.tier.entry p with poison := true } ∧ (∀ q, q ≠ p → t.tier.entry q = s.tier.entry q) ∧ t.mem = s.mem))) ∧
    (∀ ch < 3072, s.powered (Pg.drm (ch / 32)) = true → (liveList s.bup.merged).contains ch = true →
      (s.board.fld (Pg.drm (ch / 32)) F.drmChanDownMask).testBit (ch % 32) = false →
      Completes (.channelDown ch) s (fun t => (t.board.fld (Pg.drm (ch / 32)) F.drmChanDownMask).testBit (ch % 32) = true ∧
        t.board.evBit (Pg.drm (ch / 32)) F.drmEventChannelDown.lsb = true ∧ (t.board.fld Pg.bup F.bupHeldCauseCauses).testBit Hc.classC = true ∧
        (s.board.st = St.service → t.board.st = St.held)))


/-! ### Contexts and operators (05_sniash_operators) -/

/-- R136: a doorbell to a FREE or ERROR context, or from the link that does not own the module, is discarded and counted; the current PI changes
nothing; one that would overfill the ring ends in ERROR with a QUEUE_OVERFLOW record; else PI is taken. R137: a fetch brings the used slots of CI's group. -/
def Obligations.DoorbellsAndFetches : Prop :=
  ∀ (s : State) (l : Link) (n : Nat), n < 256 → s.present Pg.opq0 = true →
    (∀ v : Word, v.toNat < 2 ^ 16 → s.mayWrite l Pg.opq0 →
      ((s.cstate n = Cs.free ∨ s.cstate n = Cs.error) → Completes (.doorbell l n v) s (fun t =>
        t.board.cnt Pg.opq0 Cn.opq0DbRejected = (s.board.cnt Pg.opq0 Cn.opq0DbRejected + 1) % 2 ^ 64 ∧
        t.board.evBit Pg.opq0 F.opq0EventDbRejected.lsb = true ∧ { t with board := s.board } = s ∧
        s.board.Keeps t.board (evs [Pg.opq0]) ((Pg.opq0, Cn.opq0DbRejected) :: hostCnts) [])) ∧
      (s.cstate n ≠ Cs.free → s.cstate n ≠ Cs.error →
        (v.toNat = s.pi n → Completes (.doorbell l n v) s (fun t => t = s.counted)) ∧
        (v.toNat ≠ s.pi n → idxSub v.toNat (s.oldest n) ≤ s.qsize n → Completes (.doorbell l n v) s (fun t => t.pi n = v.toNat ∧ t.ci n = s.ci n ∧
          { t with board := s.board } = s ∧ s.board.Keeps t.board [(ctxPage n, 0x118 + 64 * (n % 16))] hostCnts [])) ∧
        (v.toNat ≠ s.pi n → s.qsize n < idxSub v.toNat (s.oldest n) → s.ringRoom n = true → (s.ctx n).owed = [] → (s.ctx n).ops = [] →
          Completes (.doorbell l n v) s (fun t => t.cstate n = Cs.error ∧ t.pi n = s.pi n ∧ t.board.evBit Pg.opq0 F.opq0EventQueueOverflow.lsb = true ∧
            s.recorded t n { Rec.blank with type := 4, ctx := n, cause := Cause.queueOverflow, gtcStart := s.board.gtc, gtcEnd := s.board.gtc } ∧
            (∀ a, s.offSlot n a → memByte t.mem a = memByte s.mem a) ∧ s.onlyCtx t n ∧ s.board.Keeps t.board (recRegs n) hostCnts [])))) ∧
    (∀ v : Word, s.answers = true → s.board.owner ≠ some (linkIdx l) → Completes (.doorbell l n v) s (fun t =>
      t.board.cnt Pg.opq0 Cn.opq0DbRejected = (s.board.cnt Pg.opq0 Cn.opq0DbRejected + 1) % 2 ^ 64 ∧ { t with board := s.board } = s ∧
      ∀ m, t.pi m = s.pi m)) ∧
    ((s.cstate n = Cs.ready ∨ s.cstate n = Cs.running) → s.ci n ≠ (s.ctx n).actPi →
      Completes (.descriptorFetch n) s (fun t =>
        (∀ i, i < 32 - s.ci n % s.qsize n % 32 → i < idxSub (s.ctx n).actPi (s.ci n) →
          (t.ctx n).fetched.find? (fun e => e.1 == (s.ci n + i) % 65536) =
            some ((s.ci n + i) % 65536, s.rdBytes (s.qbase n + 128 * ((s.ci n + i) % 65536 % s.qsize n)) 128)) ∧
        { t.ctx n with fetched := (s.ctx n).fetched } = s.ctx n ∧ s.onlyCtx t n ∧ t.mem = s.mem ∧ t.freeCtr = s.freeCtr ∧
        t.board = s.board.inc Pg.opq0 Cn.opq0DescBursts 1))

/-- R157, R158, R165: ENABLE of a FREE context whose configuration passes makes it READY with its indexes 0, else it stays FREE with CFG_ERR and
the event; RESET ends its operators, records CONTEXT_RESET for the oldest and leaves it RESETTING with its indexes 0; DISABLE waits for the
boundary, and abandons a load. -/
def Obligations.ContextsFollowTheirCommands : Prop :=
  ∀ (s : State) (l : Link) (n : Nat), n < 256 → s.mayWrite l (ctxPage n) →
    (s.cstate n = Cs.free →
      (s.enableOk n = true → Completes (.enable l n) s (fun t => t.cstate n = Cs.ready ∧ t.ctx n = Ctx.init ∧ t.pi n = 0 ∧ t.ci n = 0 ∧ t.wi n = 0 ∧
        t.ri n = 0 ∧ t.cf n F.opqCtxStateCfgErr = 0 ∧ s.onlyCtx t n ∧ t.mem = s.mem ∧ t.freeCtr = s.freeCtr ∧ s.board.Keeps t.board (ctxRegs n) hostCnts [])) ∧
      (s.enableOk n = false → Completes (.enable l n) s (fun t => t.cstate n = Cs.free ∧ t.cf n F.opqCtxStateCfgErr = 1 ∧
        t.board.evBit Pg.opq0 F.opq0EventCtxConfig.lsb = true ∧ { t with board := s.board } = s ∧
        s.board.Keeps t.board ((ctxPage n, 0x104 + 64 * (n % 16)) :: evs [Pg.opq0]) hostCnts [])) ∧
      ∀ c, (c = .contextReset l n ∨ c = .disable l n) → Completes c s (fun t => t = s.counted)) ∧
    (s.cstate n ≠ Cs.free →
      Completes (.enable l n) s (fun t => t = s.counted) ∧
      Completes (.contextReset l n) s (fun t => t.cstate n = Cs.resetting ∧ t.ctx n = Ctx.init ∧ t.pi n = 0 ∧ t.ci n = 0 ∧ t.wi n = 0 ∧ t.ri n = 0 ∧
        (s.runningCtx (s.partOf n) = some n → t.runningCtx (s.partOf n) = none) ∧
        (∀ o, (s.ctx n).ops = [o] → o.complete = false → s.ringRoom n = true → (s.ctx n).owed = [] →
          memRead t.mem (s.slotAt n) 64 = ({ o.record with type := 2, cause := Cause.contextReset, slot := 7, gtcEnd := s.board.gtc } : Rec).bytes ((s.ctx n).seq + 1) ∧
          ∀ a, s.offSlot n a → (∀ w ∈ o.outW, a < w.1 ∨ w.1 + w.2.length ≤ a) → memByte t.mem a = memByte s.mem a) ∧
        ((s.ctx n).ops = [] → (s.ctx n).owed = [] → t.mem = s.mem) ∧ s.onlyCtx t n ∧
        s.board.Keeps t.board ((Pg.opq0, F.opq0StatusPartsActive.off) :: (Pg.opq0, (F.opq0PartCtrlRunningCtx (s.partOf n)).off) :: recRegs n ++ s.workRegs n)
          ((Pg.mod, Cn.modBar0Writes) :: recCnts) []) ∧
      (s.cstate n ≠ Cs.loading → Completes (.disable l n) s (fun t => t.ctx n = { s.ctx n with disablePending := true } ∧ t.board = s.counted.board ∧
        s.onlyCtx t n ∧ t.mem = s.mem ∧ t.freeCtr = s.freeCtr)) ∧
      (s.cstate n = Cs.loading → Completes (.disable l n) s (fun t => (t.ctx n).disablePending = true ∧ t.tier.map = s.tier.map ∧
        t.tier.loads = s.tier.loads.filter (fun x => !(x.ctx == n)) ∧ t.board.flag Pg.shf F.shfStatusLoading = !t.tier.loads.isEmpty)))

/-- R133, R137, R138, R141 to R154: the operator at CI that may start is taken and counted. One that fails a check writes only its error record, with
the cause and slot of the first check that fails; another is in flight with what it computes, which memory gets when it completes. -/
def Obligations.OperatorsStart : Prop :=
  ∀ (s : State) (n : Nat) (raw : Bytes) (c : Instr) (o : OpDef), n < 256 → (c, o) ∈ opCommands n → s.mayStart o n raw →
    let d := Desc.ofBytes raw
    let v := s.validate n o d
    let r := o.run s n d
    let rec0 := s.opRecord n (s.ci n) d
    Completes c s (fun t => t.ci n = (s.ci n + 1) % 65536 ∧ t.pi n = s.pi n ∧ (t.ctx n).replayLeft = (s.ctx n).replayLeft - 1 ∧
      t.board.cnt Pg.opq0 Cn.opq0OpsStarted = (s.board.cnt Pg.opq0 Cn.opq0OpsStarted + b2n (decide (v.1 = 0))) % 2 ^ 64 ∧ s.onlyCtx t n ∧
      (v.1 ≠ 0 → (s.ctx n).ops = [] → s.recorded t n { rec0 with type := 2, cause := v.1, slot := v.2, gtcEnd := s.board.gtc } ∧ (t.ctx n).ops = [] ∧
        t.freeCtr = s.freeCtr ∧ (∀ a, s.offSlot n a → memByte t.mem a = memByte s.mem a) ∧
        s.board.Keeps t.board (recRegs n ++ evs [Pg.spx (s.lead n)])
          ((Pg.opq0, Cn.opq0RsvdNonzero) :: (Pg.opq0, Cn.opq0LevelErrors) :: recCnts) []) ∧
      (v.1 = 0 → ∀ k, s.wbufHit n d = some k → (s.ctx n).ops = [] →
        s.recorded t n { rec0 with type := 2, cause := Cause.wbufConflict, slot := 7, gtcEnd := s.board.gtc } ∧
        t.board.evBit (Pg.core k) F.coreEventWbufConflict.lsb = true ∧ ∀ a, s.offSlot n a → memByte t.mem a = memByte s.mem a) ∧
      (v.1 = 0 → s.wbufHit n d = none → s.sparseBad n d = none → (r.cause = 0 ∨ r.keep = true) →
        t.mem = s.mem ∧ t.cf n F.opqCtxStateInFlight = (s.live n).length + 1 ∧ (∃ q, (t.ctx n).ops = (s.ctx n).ops ++ [q] ∧ q.qindex = s.ci n ∧ q.desc = raw ∧
          q.complete = false ∧ q.outW = r.writes ∧ q.record =
          { rec0 with ticks := 1, type := if r.cause = 0 then 1 else 2, cause := r.cause, slot := r.slot, nonfinite := r.flag, digestValid := r.digest.isSome, digest := r.digest.getD 0, satCount := r.sats, nonfiniteCount := r.nonfin, aux := r.aux }) ∧
        s.board.Keeps t.board (ctxRegs n ++ s.workRegs n) ((Pg.opq0, Cn.opq0OpsStarted) :: (Pg.opq0, Cn.opq0RsvdNonzero) :: s.workCnts n) []) ∧
      (v.1 = 0 → s.wbufHit n d = none → ∀ e, s.sparseBad n d = some e → t.mem = s.mem ∧ ∃ q, (t.ctx n).ops = (s.ctx n).ops ++ [q] ∧ q.record.type = 2 ∧
        q.record.cause = e.1 ∧ q.outW.map (fun w => (w.1, w.2.length)) = q.outputs.map (fun x => (x.lo, x.hi - x.lo))))

/-- R140, R141, R162: an operator that completes commits its writes, is counted, and, at the front of the queue, its record is written; one that has run
its TICK_BUDGET ends with cause BUDGET and free bytes in its outputs. No other byte of memory changes. -/
def Obligations.OperatorsComplete : Prop :=
  ∀ (s : State) (n : Nat) (o : OpRun), n < 256 → (s.ctx n).ops = [o] → (s.ctx n).owed = [] → s.ringRoom n = true → o.complete = false →
    (o.mark = false → (Desc.ofBytes o.desc).opcode ∉ [0x70, 0x71, 0x72] → Completes (.operatorComplete n o.qindex) s (fun t =>
      (t.ctx n).ops = [] ∧ t.cf n F.opqCtxStateInFlight = 0 ∧ (t.ctx n).seq = (s.ctx n).seq + 1 ∧ t.wi n = (s.wi n + 1) % 65536 ∧
      t.mem = memWrite (s.wrAll o.outW).mem (s.slotAt n) (({ o.record with gtcEnd := s.board.gtc } : Rec).bytes ((s.ctx n).seq + 1)) ∧
      (o.record.type = 1 → t.board.cnt (ctxPage n) (Cn.opqOpsDone (n % 16)) = (s.board.cnt (ctxPage n) (Cn.opqOpsDone (n % 16)) + 1) % 2 ^ 64 ∧
        t.board.cnt Pg.opq0 Cn.opq0OpsCompleted = (s.board.cnt Pg.opq0 Cn.opq0OpsCompleted + 1) % 2 ^ 64) ∧
      (o.record.irq = true → t.board.evBit (ctxPage n) (n % 16) = true) ∧ s.onlyCtx t n ∧ t.freeCtr = s.freeCtr ∧
      s.board.Keeps t.board (recRegs n ++ s.workRegs n) ([(ctxPage n, Cn.opqOpsDone (n % 16)), (Pg.opq0, Cn.opq0OpsCompleted)] ++ recCnts) [])) ∧
    (Completes (.budget n o.qindex) s (fun t =>
      let b := (Desc.ofBytes o.desc).budget
      ((b = 0 ∨ o.record.ticks < b) → t = s) ∧
      (b ≠ 0 → b ≤ o.record.ticks →
        s.recorded t n { o.record with type := 2, cause := Cause.budget, slot := 7, aux := 0, digestValid := false, digest := 0, gtcEnd := s.board.gtc } ∧
        (t.ctx n).ops = [] ∧ (∀ a, s.offSlot n a → (∀ x ∈ o.outputs, a < x.lo ∨ x.hi ≤ a) → memByte t.mem a = memByte s.mem a) ∧ s.onlyCtx t n ∧
        s.board.Keeps t.board (recRegs n ++ s.workRegs n) recCnts [])))

/-- R156, R163, R189, R190: NOP, STEP and MIGRATE that pass their checks complete at once: the record is written, STEP marks the replay point, a seal
makes its pages SEALED with a new OBJECT, a promote goes to a free tier 0 frame, a demote to its home, and a full engine refuses both. -/
def Obligations.QuickOperatorsComplete : Prop :=
  ∀ (s : State) (n : Nat) (raw : Bytes) (c : Instr) (o : OpDef), n < 256 → (c, o) ∈ quickCommands n → s.mayStart o n raw →
    let d := Desc.ofBytes raw
    (s.validate n o d).1 = 0 → (s.ctx n).ops = [] → (s.feed (s.partOf n)).cur = none →
    Completes c s (fun t => t.ci n = (s.ci n + 1) % 65536 ∧
      t.board.cnt Pg.opq0 Cn.opq0OpsCompleted = (s.board.cnt Pg.opq0 Cn.opq0OpsCompleted + 1) % 2 ^ 64 ∧
      t.board.cnt (ctxPage n) (Cn.opqOpsDone (n % 16)) = (s.board.cnt (ctxPage n) (Cn.opqOpsDone (n % 16)) + 1) % 2 ^ 64 ∧ (∀ m, m ≠ n → t.ctx m = s.ctx m) ∧
      (c ∈ [.nop n, .step n, .migrateSeal n] → s.recorded t n { s.opRecord n (s.ci n) d with ticks := 1, gtcEnd := s.board.gtc } ∧ (t.ctx n).ops = [] ∧
        (∀ a, s.offSlot n a → memByte t.mem a = memByte s.mem a) ∧
        s.board.Keeps t.board (recRegs n ++ s.workRegs n)
          ([(ctxPage n, Cn.opqOpsDone (n % 16)), (Pg.opq0, Cn.opq0OpsStarted), (Pg.opq0, Cn.opq0OpsCompleted), (Pg.opq0, Cn.opq0RsvdNonzero)] ++ s.workCnts n ++ recCnts) []) ∧
      (c = .nop n → s.onlyCtx t n ∧ (t.ctx n).stepped = (s.ctx n).stepped) ∧
      (c = .step n → t.cf n F.opqCtxLastStepQindex = s.ci n ∧ (t.ctx n).stepped = true ∧ (t.ctx n).stepNo = d.param 0 ∧ t.crown.stepEnd = true ∧
        s.onlyCtx { t with crown := s.crown } n ∧ { t.crown with stepEnd := s.crown.stepEnd } = s.crown) ∧
      (c = .migrateSeal n → (∀ p, t.tier.entry p = if p ∈ d.migPages then { s.tier.entry p with writable := false, sealed := true, object := s.tier.nextObject }
          else s.tier.entry p) ∧ t.tier.nextObject = s.tier.nextObject + 1 ∧ s.onlyCtx { t with tier := s.tier } n ∧
        { t.tier with map := s.tier.map, nextObject := s.tier.nextObject } = s.tier) ∧
      (c ∈ [.migratePromote n, .migrateDemote n] → t.tier.map = s.tier.map ∧
        (256 ≤ s.tier.migQ.length → t.tier = s.tier ∧ t.board.cnt Pg.mem Cn.memMigRefused = (s.board.cnt Pg.mem Cn.memMigRefused + 1) % 2 ^ 64 ∧
          (2 ≤ s.csize n → memRead t.mem (s.slotAt n) 64 =
            ({ Rec.blank with type := 4, ctx := n, cause := Cause.migrateBusy, tag := d.tag, gtcStart := s.board.gtc, gtcEnd := s.board.gtc } : Rec).bytes ((s.ctx n).seq + 1))) ∧
        (∀ p, s.tier.migQ = [] → s.tier.fly = [] → s.tier.changes = [] → d.migPages = [p] → (s.tier.entry p).valid = true → (t.ctx n).ops = [] ∧
          (c = .migratePromote n → (s.tier.entry p).tier ≠ 0 → ∀ x, s.freeFrame 0 = some x → t.tier.fly = [⟨p, 0, x, false⟩]) ∧
          (c = .migrateDemote n → (s.tier.entry p).sealed = true → (s.tier.entry p).tier = 0 → (s.tier.entry p).homeValid = true →
            ∃ e, t.tier.changes = [⟨p, e, true⟩] ∧ e.tier = (s.tier.entry p).homeTier ∧ e.frame = (s.tier.entry p).homeFrame))))

/-! ### Cores and the fabric (03_large_cores, 04_sparsity, 07_fabric) -/

/-- R67, R71, R80, R83: a saturated stream engine, a residue mismatch, a working store error and a strand fault are counted and reported on their core; a
third mismatch degrades the core, a sector lost twice and every mismatch enter the field-defect log; a crown's own class B fault aborts its step. -/
def Obligations.CoreFaultsAreReported : Prop :=
  ∀ (s : State) (k : Nat), s.coreEnabled k = true → s.store.logCount + 1 < logMax →
    let cp := Pg.core k
    let quiet := s.holdsTop = false ∧ s.isCrown = false ∧ ∀ e < 48, s.engUp e = false
    let aborts := fun (t : State) => ∀ n, (s.partOfCore k).bind s.runningCtx = some n → s.holdsTop = true → s.gridRuns = true → s.crown.aborts = [] →
      ∃ at_, t.crown.aborts = [⟨s.stepOf n, (s.attemptOf (s.stepOf n) + 1) % 256, 3, at_⟩]
    Completes (.seSaturated k) s (fun t => t.board.evBit cp F.coreEventSeSaturated.lsb = true ∧ { t with board := s.board } = s ∧
      s.board.Keeps t.board (evs [cp]) logCnts []) ∧
    (∀ site, Completes (.arrayCheck k site) s (fun t =>
      let m := Tbl.get (fun _ => 0) (s.core k).siteErrs site + 1
      t.board.cnt cp Cn.coreArrayCheckCount = (s.board.cnt cp Cn.coreArrayCheckCount + 1) % 2 ^ 64 ∧ t.board.evBit cp F.coreEventArrayCheck.lsb = true ∧
      Tbl.get (fun _ => 0) (t.core k).siteErrs site = m ∧ { t.core k with siteErrs := (s.core k).siteErrs } = s.core k ∧ (∀ c, c ≠ k → t.core c = s.core c) ∧
      t.bup.sinceMerge = s.bup.sinceMerge ++ [⟨2, 4, k, site, s.store.lifeBringups⟩] ∧
      (3 ≤ m → t.board.flag cp F.coreStatusDegraded = true ∧ (s.board.flag cp F.coreStatusDegraded = false → t.board.evBit cp F.coreEventDegradedSet.lsb = true)) ∧
      (m < 3 → t.board.flag cp F.coreStatusDegraded = s.board.flag cp F.coreStatusDegraded) ∧ aborts t ∧
      (quiet → { t with board := s.board, cores := s.cores, bup := { t.bup with sinceMerge := s.bup.sinceMerge }, freeCtr := s.freeCtr,
                        store := { t.store with fieldStaged := s.store.fieldStaged } } = s ∧
        s.board.Keeps t.board ([(cp, 0x010), (Pg.fus, F.fusFieldEntriesCount.off)] ++ evs [cp, Pg.fus])
          ([(cp, Cn.coreArrayCheckCount), (Pg.fus, Cn.fusFieldAppends)] ++ logCnts) []))) ∧
    (∀ sector, Completes (.wsEccError k sector false) s (fun t => t.board.cnt cp Cn.coreWsCeCount = (s.board.cnt cp Cn.coreWsCeCount + 1) % 2 ^ 64 ∧
      t.board.evBit cp F.coreEventWsCe.lsb = true ∧ { t with board := s.board } = s ∧ s.board.Keeps t.board (evs [cp]) ((cp, Cn.coreWsCeCount) :: logCnts) [])) ∧
    (∀ sector, Completes (.wsEccError k sector true) s (fun t =>
      let m := Tbl.get (fun _ => 0) (s.core k).wsErrs sector + 1
      let row := 32 * sector
      t.board.cnt cp Cn.coreWsUeCount = (s.board.cnt cp Cn.coreWsUeCount + 1) % 2 ^ 64 ∧ t.board.evBit cp F.coreEventWsUe.lsb = true ∧
      Tbl.get (fun _ => 0) (t.core k).wsErrs sector = m ∧ sector ∈ (t.core k).wsPoison ∧ aborts t ∧
      t.bup.sinceMerge = s.bup.sinceMerge ++ (if m = 2 then [⟨3, 4, k, (row / 1024 % 32) * 2 ^ 16 + row / 2 ^ 15, s.store.lifeBringups⟩] else []) ∧
      (∀ a, (a < k * Lay.window + row ∨ k * Lay.window + row + 32 ≤ a) → memByte t.mem a = memByte s.mem a) ∧ (∀ c, c ≠ k → t.core c = s.core c) ∧
      (quiet → { t with board := s.board, cores := s.cores, bup := { t.bup with sinceMerge := s.bup.sinceMerge }, mem := s.mem, freeCtr := s.freeCtr,
                        store := { t.store with fieldStaged := s.store.fieldStaged } } = s))) ∧
    (∀ (n strand : Nat) (o : OpRun), n < 256 → (s.ctx n).ops = [o] → (s.ctx n).owed = [] → s.ringRoom n = true → o.complete = false →
      Completes (.strandFault k n o.qindex strand) s (fun t => t.board.evBit cp F.coreEventStrandFault.lsb = true ∧ (t.core k).strands = [] ∧
        t.board.fld cp F.coreStrandStateLive = 0 ∧ t.board.cnt cp Cn.coreStrandFaults = (s.board.cnt cp Cn.coreStrandFaults + 1) % 2 ^ 64 ∧
        s.recorded t n { o.record with type := 2, cause := Cause.strandFault, slot := 7, aux := strand, digestValid := false, digest := 0, gtcEnd := s.board.gtc } ∧
        (t.ctx n).ops = [] ∧ (∀ a, s.offSlot n a → (∀ x ∈ o.outputs, a < x.lo ∨ x.hi ≤ a) → memByte t.mem a = memByte s.mem a) ∧
        s.onlyCtx { t with cores := s.cores } n ∧ (∀ c, c ≠ k → t.core c = s.core c) ∧
        s.board.Keeps t.board ((cp, F.coreStrandStateLive.off) :: evs [cp] ++ recRegs n ++ s.workRegs n) ((cp, Cn.coreStrandFaults) :: recCnts) []))

/-- R85, R86, R87, R339: a task that completes is counted, and after an overrun its negative slack is latched at once; COUNT slow ticks set a core's SLOW
flag and COUNT others clear it. R112, R113, R114: an update adds into the first of eight slots that is free or holds its key, else it spills, or is dropped. -/
def Obligations.TasksAndAccumulators : Prop :=
  ∀ (s : State) (k : Nat), s.coreEnabled k = true →
    let cp := Pg.core k
    let sp := Pg.spx k
    (∀ q at_, (s.core k).task = some q → (s.core k).doneAt = none → Completes (.taskComplete k at_) s (fun t =>
      (t.core k).doneAt = some at_ ∧ (t.core k).strands = [] ∧ (t.core k).task = some q ∧ t.board.flag cp F.coreStatusBusy = false ∧
      t.board.cnt cp Cn.coreTasksDone = (s.board.cnt cp Cn.coreTasksDone + 1) % 2 ^ 64 ∧ t.board.gtc = max s.board.gtc at_ ∧
      ((s.core k).overran = none → t.board.cnt cp Cn.coreSlackLast = s.board.cnt cp Cn.coreSlackLast) ∧
      (∀ t0, (s.core k).overran = some t0 → t.board.cnt cp Cn.coreSlackLast = codeOf 64 ((t0 : Int) - at_) ∧ (t.core k).slackSeen = true ∧
        t.board.cnt cp Cn.coreOverrunCycles = (s.board.cnt cp Cn.coreOverrunCycles + (at_ - t0)) % 2 ^ 64) ∧
      (∀ c, c ≠ k → t.core c = s.core c) ∧ { t with board := s.board, cores := s.cores } = s ∧
      ({ s.board with gtc := t.board.gtc } : Board).Keeps t.board ([(cp, 0x010), (cp, F.coreStrandStateLive.off)] ++ logRegs)
        ([(cp, Cn.coreTasksDone), (cp, Cn.coreSlackLast), (cp, Cn.coreSlackMin), (cp, Cn.coreOverrunCycles)] ++ logCnts) [])) ∧
    (let n := s.board.fld Pg.tk F.tkSlowCfgCount
     (s.board.flag cp F.coreStatusSlow = false → n ≤ (s.core k).slowRun → Completes (.slowFlag k) s (fun t => t.board.flag cp F.coreStatusSlow = true ∧
       t.board.slowMask.testBit k = true ∧ (∀ c < 96, c ≠ k → t.board.slowMask.testBit c = s.board.slowMask.testBit c) ∧
       t.board.cnt Pg.tk Cn.tkSlowFlags = (s.board.cnt Pg.tk Cn.tkSlowFlags + 1) % 2 ^ 64 ∧ t.board.evBit Pg.tk F.tkEventSlow.lsb = true ∧
       (s.isCrown = true → s.autoExclude = false → { t with board := s.board } = s ∧
         s.board.Keeps t.board ([(cp, 0x010)] ++ (List.range 3).map (fun i => (Pg.tk, F.tkSlowCoresLoCores.off + 4 * i)) ++ evs [Pg.tk]) ((Pg.tk, Cn.tkSlowFlags) :: logCnts) []))) ∧
     (s.board.flag cp F.coreStatusSlow = true → n ≤ (s.core k).fastRun → Completes (.slowFlag k) s (fun t => t.board.flag cp F.coreStatusSlow = false ∧
       t.board.slowMask.testBit k = false ∧ (∀ c < 96, c ≠ k → t.board.slowMask.testBit c = s.board.slowMask.testBit c)))) ∧
    (∀ (key v : Word), s.board.fld sp F.spxStatusHaccMode ≠ 0 →
      let h := key.toNat * 0x9E3779B1 % 2 ^ 32 / 2 ^ 16
      let at_ := fun (t : State) (j : Nat) => Tbl.get (fun _ => (none : Option (Nat × Word))) (t.core k).hacc ((h + j) % 65536)
      let other := fun (j : Nat) => ∃ e, at_ s j = some e ∧ e.1 ≠ key.toNat
      let used := s.board.fld sp F.spxSpillUsedRecords
      (∀ j < 8, (∀ i < j, other i) → ¬ other j → Completes (.haccUpdate k key v) s (fun t =>
        (at_ s j = none → at_ t j = some (key.toNat, add32 zero32 v) ∧ t.board.fld sp F.spxHaccStateEntriesUsed = (s.board.fld sp F.spxHaccStateEntriesUsed + 1) % 2 ^ 17) ∧
        (∀ w, at_ s j = some (key.toNat, w) → at_ t j = some (key.toNat, add32 w v) ∧ t.board.fld sp F.spxHaccStateEntriesUsed = s.board.fld sp F.spxHaccStateEntriesUsed) ∧
        t.board.cnt sp Cn.spxHaccUpdates = (s.board.cnt sp Cn.spxHaccUpdates + 1) % 2 ^ 64 ∧ t.board.cnt sp Cn.spxHaccProbes = (s.board.cnt sp Cn.spxHaccProbes + j) % 2 ^ 64 ∧
        { t.core k with hacc := (s.core k).hacc } = s.core k ∧ (∀ i, i < 65536 → i ≠ (h + j) % 65536 →
          Tbl.get (fun _ => (none : Option (Nat × Word))) (t.core k).hacc i = Tbl.get (fun _ => (none : Option (Nat × Word))) (s.core k).hacc i) ∧
        (∀ c, c ≠ k → t.core c = s.core c) ∧ { t with board := s.board, cores := s.cores } = s ∧
        s.board.Keeps t.board [(sp, F.spxHaccStateEntriesUsed.off)] [(sp, Cn.spxHaccUpdates), (sp, Cn.spxHaccProbes)] [])) ∧
      ((∀ j < 8, other j) → used < spillMax → Completes (.haccUpdate k key v) s (fun t =>
        memRead t.mem (Lay.spill k + 8 * used) 8 = toLE 4 key.toNat ++ toLE 4 v.toNat ∧ t.board.fld sp F.spxSpillUsedRecords = used + 1 ∧
        t.board.flag sp F.spxStatusSpillActive = true ∧ t.board.evBit sp F.spxEventHaccSpill.lsb = true ∧
        t.board.cnt sp Cn.spxHaccSpills = (s.board.cnt sp Cn.spxHaccSpills + 1) % 2 ^ 64 ∧ { t with board := s.board, mem := s.mem } = s ∧
        ∀ a, (a < Lay.spill k + 8 * used ∨ Lay.spill k + 8 * used + 8 ≤ a) → memByte t.mem a = memByte s.mem a)) ∧
      ((∀ j < 8, other j) → spillMax ≤ used → Completes (.haccUpdate k key v) s (fun t => t.board.evBit sp F.spxEventSpillFull.lsb = true ∧
        t.board.cnt sp Cn.spxSpillDropped = (s.board.cnt sp Cn.spxSpillDropped + 1) % 2 ^ 64 ∧ { t with board := s.board } = s)))

/-- R81, R82, R83, R216: a legal read takes the lowest free entry, or waits while none is free or it overlaps an unacknowledged write; a response frees its
entry. R84, R204, R220: a whole burst to a writable target is written and waits for its acknowledgement; another, a reserved port and an orphan are not. -/
def Obligations.ReadsAndWritesComplete : Prop :=
  ∀ s : State,
    let orphan := fun (t : State) => t.board.cnt Pg.fabSpine Cn.fabSpineTagOrphans = (s.board.cnt Pg.fabSpine Cn.fabSpineTagOrphans + 1) % 2 ^ 64 ∧
      t.board.evBit Pg.fabSpine F.fabSpineEventTagOrphan.lsb = true ∧ { t with board := s.board } = s ∧
      s.board.Keeps t.board (evs [Pg.fabSpine]) ((Pg.fabSpine, Cn.fabSpineTagOrphans) :: logCnts) []
    (∀ k a len desc nx, s.coreEnabled k = true → readLegal a len = true → s.tierOf a ≠ 3 →
      let r : SeRead := ⟨0, a, len, 0, desc, nx⟩
      let go := s.entryFree k desc && !s.blockedRead k r && !(s.core k).waiting.any (fun q => q.desc == desc)
      Completes (.readRequest k a len desc nx) s (fun t =>
        (go = true → ∀ e, e < 512 → (∀ i < e, (s.core k).reads.any (fun q => q.tag == 512 * k + i) = true) → (s.core k).reads.any (fun q => q.tag == 512 * k + e) = false →
          (t.core k).reads = (s.core k).reads ++ [{ r with tag := 512 * k + e, tier := s.tierOf a }] ∧ (t.core k).waiting = (s.core k).waiting ∧
          t.board.fld (Pg.core k) F.coreSeStateInUse = ((s.core k).reads.length + 1) % 2 ^ 10 ∧
          t.board.cnt (Pg.core k) Cn.coreSeReads = (s.board.cnt (Pg.core k) Cn.coreSeReads + 1) % 2 ^ 64 ∧
          s.board.Keeps t.board [(Pg.core k, F.coreSeStateInUse.off)] [(Pg.core k, Cn.coreSeReads), (Pg.mem, Cn.memTmcMisses)] []) ∧
        (go = false → (t.core k).reads = (s.core k).reads ∧ (t.core k).waiting = (s.core k).waiting ++ [r] ∧ s.board.Keeps t.board [] [(Pg.mem, Cn.memTmcMisses)] []) ∧
        (∀ c, c ≠ k → t.core c = s.core c) ∧ { t with board := s.board, cores := s.cores, freeCtr := s.freeCtr } = s)) ∧
    (∀ k a len desc nx, readLegal a len = false → Completes (.readRequest k a len desc nx) s (fun t => t = s)) ∧
    (∀ tag lat st r, tag < 0xC000 → (s.core (tag / 512)).reads.find? (fun q => q.tag == tag) = some r → (s.core (tag / 512)).waiting = [] → st ≠ 2 →
      let past := r.tier = 0 ∧ r.len ≤ 2048 ∧ s.board.fld Pg.fabSpine F.fabSpineLatBoundCycles < lat
      Completes (.readResponse tag lat st) s (fun t => (t.core (tag / 512)).reads = (s.core (tag / 512)).reads.filter (fun q => !(q.tag == tag)) ∧
        (past → t.board.cnt Pg.fabSpine Cn.fabSpineLatOver = (s.board.cnt Pg.fabSpine Cn.fabSpineLatOver + 1) % 2 ^ 64 ∧ t.board.evBit Pg.fabSpine F.fabSpineEventLatBound.lsb = true) ∧
        (¬ past → s.board.Keeps t.board [(Pg.core (tag / 512), F.coreSeStateInUse.off)] [] []) ∧ t.fab.latMax = max s.fab.latMax lat ∧ t.mem = s.mem ∧
        (∀ c, c ≠ tag / 512 → t.core c = s.core c) ∧ { t with board := s.board, cores := s.cores, fab := { t.fab with latMax := s.fab.latMax } } = s)) ∧
    (∀ tag lat st, tag < 0xC000 → (s.core (tag / 512)).reads.find? (fun q => q.tag == tag) = none → Completes (.readResponse tag lat st) s orphan) ∧
    (∀ tag lat st, 0xC000 ≤ tag → s.fab.tags.contains tag = false → Completes (.readResponse tag lat st) s orphan) ∧
    (∀ src dst a bs, portOk dst = true → bs.length ≤ 256 → s.writeOk a bs.length = true → (src < 0x400 ∨ 0x418 ≤ src ∨ Lay.windowsEnd ≤ a) →
      Completes (.writeBurst src dst a bs true) s (fun t => memRead t.mem a bs.length = bs ∧ (∀ x, (x < a ∨ a + bs.length ≤ x) → memByte t.mem x = memByte s.mem x) ∧
        t.fab.writes = s.fab.writes ++ [(src, a, bs.length)] ∧ { t with mem := s.mem, fab := { t.fab with writes := s.fab.writes } } = s) ∧
      Completes (.writeBurst src dst a bs false) s (fun t => t = s)) ∧
    (∀ src dst a bs w, portOk dst = false → Completes (.writeBurst src dst a bs w) s (fun t =>
      t = s.onBoard (fun b => b.inc Pg.fabSpine Cn.fabSpineBadDest 1))) ∧
    (∀ src dst a bs, portOk dst = true → bs.length ≤ 256 → s.writeOk a bs.length = true → 0x400 ≤ src → src < 0x418 → a < Lay.windowsEnd →
      s.inComputeHalf (a / Lay.window) a bs.length = true → Completes (.writeBurst src dst a bs true) s (fun t =>
        t.board.cnt (Pg.core (a / Lay.window)) Cn.coreWbufRefusedCount = (s.board.cnt (Pg.core (a / Lay.window)) Cn.coreWbufRefusedCount + 1) % 2 ^ 64 ∧
        t.board.evBit (Pg.core (a / Lay.window)) F.coreEventWbufConflict.lsb = true ∧ { t with board := s.board } = s)) ∧
    (∀ src w rest, s.fab.writes = w :: rest → w.1 = src → (s.core src).waiting = [] → Completes (.writeAck src) s (fun t => t = { s with fab := { s.fab with writes := rest } })) ∧
    (∀ src, (∀ w ∈ s.fab.writes, w.1 ≠ src) → Completes (.writeAck src) s orphan)

/-- R212, R193: a link or slice that was hot for CYCLES cycles is counted, named and reported, and the partitions that wait there are noted. R222, R223:
replays are counted; the sixteenth of a seam group in a tick enters its wire in the defect log, the third failed one of a link is a class C fault. -/
def Obligations.LinksReplayAndHeat : Prop :=
  ∀ s : State,
    (∀ sw port n ws, sw < 24 → port < 32 → s.board.fld Pg.fabSpine F.fabSpineHotCfgCycles ≤ n → Completes (.linkHot sw port n ws) s (fun t =>
      t.board.cnt Pg.fabSpine Cn.fabSpineLinkHotTicks = (s.board.cnt Pg.fabSpine Cn.fabSpineLinkHotTicks + 1) % 2 ^ 64 ∧
      t.board.fld Pg.fabSpine F.fabSpineHotLinkSwitch = sw ∧ t.board.fld Pg.fabSpine F.fabSpineHotLinkPort = port ∧
      t.board.evBit Pg.fabSpine F.fabSpineEventLinkHot.lsb = true ∧ (∀ p, p ∈ t.fab.hotParts ↔ p ∈ s.fab.hotParts ∨ p ∈ ws) ∧
      { t with board := s.board, fab := { t.fab with hotParts := s.fab.hotParts } } = s ∧
      s.board.Keeps t.board ((Pg.fabSpine, F.fabSpineHotLinkSwitch.off) :: evs [Pg.fabSpine]) ((Pg.fabSpine, Cn.fabSpineLinkHotTicks) :: logCnts) [])) ∧
    (∀ sw port n ws, n < s.board.fld Pg.fabSpine F.fabSpineHotCfgCycles → Completes (.linkHot sw port n ws) s (fun t => t = s)) ∧
    (∀ sl n ws, sl < 576 → s.board.fld (Pg.slc (sl / 24)) F.slcHotCfgCycles ≤ n → Completes (.sliceHot sl n ws) s (fun t =>
      t.board.cnt (Pg.slc (sl / 24)) Cn.slcHotTicks = (s.board.cnt (Pg.slc (sl / 24)) Cn.slcHotTicks + 1) % 2 ^ 64 ∧
      t.board.fld (Pg.slc (sl / 24)) F.slcHotLastSlice = sl % 24 ∧ t.board.evBit (Pg.slc (sl / 24)) F.slcEventHot.lsb = true ∧
      (∀ p, p ∈ t.fab.hotParts ↔ p ∈ s.fab.hotParts ∨ p ∈ ws) ∧ { t with board := s.board, fab := { t.fab with hotParts := s.fab.hotParts } } = s ∧
      s.board.Keeps t.board ((Pg.slc (sl / 24), F.slcHotLastSlice.off) :: evs [Pg.slc (sl / 24)]) ((Pg.slc (sl / 24), Cn.slcHotTicks) :: logCnts) [])) ∧
    (∀ sl n ws, n < s.board.fld (Pg.slc (sl / 24)) F.slcHotCfgCycles → Completes (.sliceHot sl n ws) s (fun t => t = s)) ∧
    (∀ tile dir grp wire, tile < 24 → dir < 2 → grp < 3072 → s.store.logCount + 1 < logMax →
      Completes (.seamReplay tile dir grp wire) s (fun t =>
        let key := (tile * 2 + dir) * 4096 + grp
        let m := Tbl.get (fun _ => 0) s.fab.seamReplays key + 1
        Tbl.get (fun _ => 0) t.fab.seamReplays key = m ∧ t.board.evBit (Pg.fabTile tile) F.fabTileEventSeamRetry.lsb = true ∧
        t.board.cnt (Pg.fabTile tile) Cn.fabTileSeamRetries = (s.board.cnt (Pg.fabTile tile) Cn.fabTileSeamRetries + 1) % 2 ^ 64 ∧
        t.bup.sinceMerge = s.bup.sinceMerge ++ (if m = 16 then [⟨5, 4, tile, dir * 2 ^ 31 + grp * 2 ^ 16 + wire, s.store.lifeBringups⟩] else []) ∧
        (m = 16 → t.board.evBit (Pg.fabTile tile) F.fabTileEventSeamWireBad.lsb = true) ∧
        { t with board := s.board, fab := { t.fab with seamReplays := s.fab.seamReplays }, bup := { t.bup with sinceMerge := s.bup.sinceMerge },
                 store := { t.store with fieldStaged := s.store.fieldStaged } } = s ∧
        s.board.Keeps t.board ((Pg.fus, F.fusFieldEntriesCount.off) :: evs [Pg.fabTile tile, Pg.fus])
          ([(Pg.fabTile tile, Cn.fabTileSeamRetries), (Pg.fus, Cn.fusFieldAppends)] ++ logCnts) [])) ∧
    (∀ sw port ok, s.fab.linkHeld.contains (sw * 32 + port) = false → Completes (.linkReplay sw port ok) s (fun t =>
      let key := sw * 32 + port
      let m := Tbl.get (fun _ => 0) s.fab.linkFails key + 1
      t.board.cnt Pg.fabSpine Cn.fabSpineLinkRetries = (s.board.cnt Pg.fabSpine Cn.fabSpineLinkRetries + 1) % 2 ^ 64 ∧
      (ok = true → Tbl.get (fun _ => 0) t.fab.linkFails key = 0) ∧ (ok = false → Tbl.get (fun _ => 0) t.fab.linkFails key = m) ∧
      ((ok = true ∨ m < 3) → t.fab.linkHeld = s.fab.linkHeld ∧ { t with board := s.board, fab := { t.fab with linkFails := s.fab.linkFails } } = s ∧
        s.board.Keeps t.board [] [(Pg.fabSpine, Cn.fabSpineLinkRetries)] []) ∧
      (ok = false → 3 ≤ m → t.fab.linkHeld = s.fab.linkHeld ++ [key] ∧ t.board.evBit Pg.fabSpine F.fabSpineEventLinkFault.lsb = true ∧
        (t.board.fld Pg.bup F.bupHeldCauseCauses).testBit Hc.classC = true ∧ (s.board.st = St.service → t.board.st = St.held))))

/-! ### The layer feed (08_batts_and_carding) -/

/-- R235: ARM and ARM_NEXT keep a plan that passes its checks and refuse another with PLAN_REFUSED; DISARM waits. R249: a batt that NAKs or MISS_TICKS make
missing is requested from its mirror; at its deadline it is recorded and the crown told; RETRY and the crown ask once more for each batt past it. -/
def Obligations.PlansArmAndBattsRetry : Prop :=
  ∀ (s : State) (p : Nat), p < 16 →
    let f := s.feed p
    (∀ l, s.mayWrite l Pg.crdGlobal →
      let pl := s.readPlan (s.planBase p)
      let rest := fun (t : State) => s.onlyFeed t p ∧ { t with board := s.board, feeds := s.feeds } = s
      (s.planOk p pl = true →
        Completes (.arm l p) s (fun t => t.feed p = { f with armed := some pl, stepDone := false } ∧ rest t ∧ t.board = s.counted.board) ∧
        Completes (.armNext l p) s (fun t => t.feed p = { f with next := some pl } ∧ rest t ∧ t.board.flag Pg.crdGlobal (F.crdGlobalPlanStateNextValid p) = true ∧
          s.board.Keeps t.board [(Pg.crdGlobal, 0x010), (Pg.crdGlobal, 0x10C + 16 * p)] hostCnts [])) ∧
      (s.planOk p pl = false → ∀ c ∈ [Instr.arm l p, .armNext l p], Completes c s (fun t => t.board.evBit Pg.crdGlobal F.crdGlobalEventPlanRefused.lsb = true ∧
        { t with board := s.board } = s ∧ s.board.Keeps t.board (evs [Pg.crdGlobal]) hostCnts [])) ∧
      Completes (.disarm l p) s (fun t => t.feed p = { f with disarm := true, stepDone := false } ∧ rest t ∧ t.board = s.counted.board) ∧
      ((∀ b ∈ f.batts, b.dead = false ∨ b.phase ≠ .absent) → Completes (.retry l p) s (fun t => t = s.counted)) ∧
      (∀ pl b, f.fill = some pl → f.batts = [b] → b.dead = true → b.phase = .absent → b.requests < 255 → Completes (.retry l p) s (fun t =>
        (t.feed p).batt b.idx = some { b with requests := b.requests + 1, pending := true } ∧ s.onlyBatt t p b.idx ∧
        s.requested t p (b.requests + 1) pl (s.entryOf pl b.idx)))) ∧
    (∀ pl k b, f.fill = some pl → f.batt k = some b →
      let e := s.entryOf pl k
      let missing := fun (t : State) => (t.feed p).batt k = some { b with cause := 2, sinceFail := some 0, requests := b.requests + 1, pending := true } ∧
        s.onlyBatt t p k ∧ s.requested t p (b.requests + 1) pl e ∧ { t with board := s.board, feeds := s.feeds, net := s.net, freeCtr := s.freeCtr } = s
      let past := b.phase ≠ .committed ∧ (∀ i, b.phase ≠ .forwarding i) ∧ b.dead = false ∧ pl.deadline ≤ b.sinceFail.getD 0
      let notice := bodyOf 32 [(0, 2, s.rack), (2, 1, pl.ctx), (3, 1, s.attemptOf f.fillStep), (4, 4, f.fillStep), (8, 2, e.layer), (10, 2, e.shard), (12, 4, e.id), (16, 1, b.cause)]
      (b.phase = .absent → b.sinceFail = none → pl.missTicks ≤ b.late → Completes (.battMissing p k) s (fun t => missing t ∧
        ∃ sent, s.board.Keeps t.board [] ((Pg.crdGlobal, Cn.crdGlobalReqsSent) :: netCnts) sent)) ∧
      ((b.phase ≠ .absent ∨ b.sinceFail ≠ none ∨ b.late < pl.missTicks) → Completes (.battMissing p k) s (fun t => t = s)) ∧
      (past → Completes (.battDeadline p k) s (fun t => (t.feed p).batt k = some { b with dead := true } ∧ s.onlyBatt t p k ∧
        t.board.cnt Pg.crdGlobal Cn.crdGlobalDeadlines = (s.board.cnt Pg.crdGlobal Cn.crdGlobalDeadlines + 1) % 2 ^ 64 ∧
        t.board.evBit Pg.crdGlobal F.crdGlobalEventDeadline.lsb = true ∧ t.board.fld Pg.crdGlobal F.crdGlobalLastFailIdBattId = e.id ∧
        t.board.fld Pg.crdGlobal F.crdGlobalLastFailLayer = e.layer ∧ t.board.fld Pg.crdGlobal F.crdGlobalLastFailPartition = p ∧
        t.board.fld Pg.crdGlobal F.crdGlobalLastFailCause = b.cause % 8 ∧ (s.holdsTop = false → t.sendsAs (s.toCrown 1 0x20 notice)) ∧
        (s.holdsTop = true → t.board.cnt Pg.role Cn.roleNotices = (s.board.cnt Pg.role Cn.roleNotices + 1) % 2 ^ 64 ∧
          (s.board.flag Pg.role F.roleCrownCfgBattAbort = false → t.net = s.net ∧ t.crown = s.crown)))) ∧
      (¬ past → Completes (.battDeadline p k) s (fun t => t = s)) ∧
      (∀ body, s.partOf (leAt body 1 1) = p → leAt body 1 1 = pl.ctx → f.batts.find? (fun b => (s.entryOf pl b.idx).id == leAt body 12 4 && (s.entryOf pl b.idx).shard == leAt body 10 2) = some b →
        b.idx = k → leAt body 4 4 = f.fillStep → leAt body 8 2 = f.fillLayer → leAt body 2 1 = 0 → b.phase = .absent → b.sinceFail = none → b.cause = 0 →
        Completes (.nak body) s (fun t => missing t ∧ t.board.cnt Pg.crdGlobal Cn.crdGlobalNaks = (s.board.cnt Pg.crdGlobal Cn.crdGlobalNaks + 1) % 2 ^ 64 ∧
          t.board.evBit Pg.crdGlobal F.crdGlobalEventNak.lsb = true)) ∧
      (∀ body, s.partOf (leAt body 2 1) = p → f.batts.find? (fun b => (s.entryOf pl b.idx).id == leAt body 12 4 && (s.entryOf pl b.idx).shard == leAt body 10 2) = some b →
        b.idx = k → s.inService = true → b.dead = true → b.phase = .absent → b.requests < 255 → Completes (.crownRetryRequest body) s (fun t =>
          (t.feed p).batt k = some { b with requests := b.requests + 1, pending := true } ∧ s.onlyBatt t p k ∧ s.requested t p (b.requests + 1) pl e))) ∧
    (f.fill = none → ∀ body, s.partOf (leAt body 1 1) = p → Completes (.nak body) s (fun t => t.board.evBit Pg.crdGlobal F.crdGlobalEventNak.lsb = true ∧
      t.board.cnt Pg.crdGlobal Cn.crdGlobalNaks = (s.board.cnt Pg.crdGlobal Cn.crdGlobalNaks + 1) % 2 ^ 64 ∧ { t with board := s.board } = s ∧
      s.board.Keeps t.board (evs [Pg.crdGlobal]) ((Pg.crdGlobal, Cn.crdGlobalNaks) :: logCnts) []))

/-- R238: the first check that a batt's header fails decides what is counted; one that passes is in carding. R240, R244: its payload's checks decide
whether its output is written; it commits once, at the head of a chain first. R245, R328: cores arrive at the layer mark, and the barrier completes. -/
def Obligations.BattsAreCardedAndCommitted : Prop :=
  ∀ s : State,
    let counts := fun (off : Nat) (t : State) => t = s.onBoard (fun b => b.inc Pg.crdGlobal off 1)
    (∀ bs, (s.inService = true ∨ s.tier.loads ≠ [] →
        ((bs.length < 64 ∨ headerOk bs = false) → Completes (.batt bs) s (counts Cn.crdGlobalHdrBad)) ∧
        (64 ≤ bs.length → headerOk bs = true →
          let h := BattHdr.ofBytes bs
          (s.battEntry h = none → Completes (.batt bs) s (counts Cn.crdGlobalHdrMismatch)) ∧
          (∀ p pl e, s.battEntry h = some (p, pl, e) → (s.feed p).batt h.index = none → Completes (.batt bs) s (counts Cn.crdGlobalStale)) ∧
          (∀ p pl e, s.battEntry h = some (p, pl, e) → ∀ b, (s.feed p).batt h.index = some b →
            let ownStep := h.step = (s.feed p).fillStep ∧ h.layer = (s.feed p).fillLayer
            let badLevel := h.level = 0 ∨ 3 < h.level ∨ pl.level < h.level ∨ 1 < h.codec ∨ (h.codec = 1 ∧ h.level = 1)
            let fits := convertOk h e.rows e.cols = true ∧ s.targetOk p pl h e = true
            let retried := fun (t : State) => (t.feed p).batt h.index = some { b with cause := 3, sinceFail := some 0, requests := b.requests + 1, pending := true } ∧
              s.onlyBatt t p h.index ∧ s.requested t p (b.requests + 1) pl e
            (¬ ownStep → Completes (.batt bs) s (counts Cn.crdGlobalStale)) ∧
            (ownStep → b.phase ≠ .absent → Completes (.batt bs) s (counts Cn.crdGlobalDuplicates)) ∧
            (ownStep → b.phase = .absent → badLevel → b.sinceFail = none → Completes (.batt bs) s (fun t => retried t ∧
              t.board.cnt Pg.crdGlobal Cn.crdGlobalLevelErrors = (s.board.cnt Pg.crdGlobal Cn.crdGlobalLevelErrors + 1) % 2 ^ 64 ∧
              t.board.evBit Pg.crdGlobal F.crdGlobalEventLevel.lsb = true)) ∧
            (ownStep → b.phase = .absent → ¬ badLevel → ¬ fits → b.sinceFail = none → Completes (.batt bs) s (fun t => retried t ∧
              t.board.cnt (Pg.crdTile e.tile) Cn.crdTileFormatErrors = (s.board.cnt (Pg.crdTile e.tile) Cn.crdTileFormatErrors + 1) % 2 ^ 64 ∧
              t.board.evBit (Pg.crdTile e.tile) F.crdTileEventFormat.lsb = true)) ∧
            (ownStep → b.phase = .absent → ¬ badLevel → fits → Completes (.batt bs) s (fun t =>
              (t.feed p).batt h.index = some { b with phase := .carding, hdr := bs.take 64 } ∧ s.onlyBatt t p h.index ∧
              t.board.flag (Pg.crdTile e.tile) F.crdTileStatusBusy = true ∧ { t with board := s.board, feeds := s.feeds } = s ∧
              s.board.Keeps t.board [(Pg.crdTile e.tile, 0x010)] [] []))))) ∧
      (s.inService = false → s.tier.loads = [] → Completes (.batt bs) s (counts Cn.crdGlobalDiscardState))) ∧
    (∀ p k pl b, (s.feed p).fill = some pl → (s.feed p).batt k = some b →
      let e := s.entryOf pl k
      let h := BattHdr.ofBytes b.hdr
      let tp := Pg.crdTile e.tile
      let retried := fun (t : State) => (t.feed p).batt k = some { b with phase := .absent, hdr := [], cause := 3, sinceFail := some 0, requests := b.requests + 1, pending := true } ∧
        s.onlyBatt t p k ∧ s.requested t p (b.requests + 1) pl e ∧ t.mem = s.mem
      (b.phase = .carding → ∀ pay,
        (cardPayload h e.rows e.cols pay = .error false → b.sinceFail = none → Completes (.battPayloadEnd p k pay) s (fun t => retried t ∧
          t.board.cnt tp Cn.crdTileCrcFails = (s.board.cnt tp Cn.crdTileCrcFails + 1) % 2 ^ 64 ∧ t.board.evBit tp F.crdTileEventCrcFail.lsb = true)) ∧
        (cardPayload h e.rows e.cols pay = .error true → b.sinceFail = none → Completes (.battPayloadEnd p k pay) s (fun t => retried t ∧
          t.board.cnt tp Cn.crdTileMalformed = (s.board.cnt tp Cn.crdTileMalformed + 1) % 2 ^ 64 ∧ t.board.evBit tp F.crdTileEventMalformed.lsb = true)) ∧
        (∀ c a, cardPayload h e.rows e.cols pay = .ok c → s.battBase p pl e = some a →
          let ws := c.main.map (fun w => (a + w.1, w.2)) ++ [(a + 64 * e.scaleDest, c.scales), (a + 64 * e.scaleDest + roundUp c.scales.length 64, c.words)]
          let hits := fun (core : Nat) => ws.any (fun w => decide (w.2.length ≠ 0) && s.inComputeHalf core w.1 w.2.length)
          ((e.target = 2 ∨ ∃ core, e.target ≤ 1 ∧ s.headCore p pl e = some core ∧ hits core = false) → Completes (.battPayloadEnd p k pay) s (fun t =>
            (t.feed p).batt k = some { b with phase := .carded } ∧ s.onlyBatt t p k ∧ t.mem = (s.wrAll ws).mem ∧
            t.board.cnt tp Cn.crdTileSatCount = (s.board.cnt tp Cn.crdTileSatCount + c.sats) % 2 ^ 64 ∧
            t.board.cnt tp Cn.crdTileNonfiniteCount = (s.board.cnt tp Cn.crdTileNonfiniteCount + c.nonfin) % 2 ^ 64 ∧
            { t with board := s.board, feeds := s.feeds, mem := s.mem } = s ∧
            s.board.Keeps t.board [] [(tp, Cn.crdTileSatCount), (tp, Cn.crdTileNonfiniteCount)] [])) ∧
          (∀ core, e.target ≤ 1 → s.headCore p pl e = some core → hits core = true → Completes (.battPayloadEnd p k pay) s (fun t =>
            (t.feed p).batt k = some { b with phase := .absent, hdr := [] } ∧ s.onlyBatt t p k ∧ t.mem = s.mem ∧
            t.board.cnt (Pg.core core) Cn.coreWbufRefusedCount = (s.board.cnt (Pg.core core) Cn.coreWbufRefusedCount + 1) % 2 ^ 64 ∧
            t.board.evBit (Pg.core core) F.coreEventWbufConflict.lsb = true)))) ∧
      (b.phase = .carded → Completes (.battCommit p k) s (fun t =>
        (t.feed p).batt k = some { b with phase := if e.target = 1 then .forwarding 0 else .committed, pending := false } ∧ s.onlyBatt t p k ∧
        t.board.cnt tp Cn.crdTileBattsCommitted = (s.board.cnt tp Cn.crdTileBattsCommitted + 1) % 2 ^ 64 ∧
        t.board.cnt tp Cn.crdTilePayloadBytes = (s.board.cnt tp Cn.crdTilePayloadBytes + h.payload) % 2 ^ 64 ∧
        t.board.cnt tp Cn.crdTileOutBytes = (s.board.cnt tp Cn.crdTileOutBytes + h.out) % 2 ^ 64 ∧ { t with board := s.board, feeds := s.feeds } = s ∧
        s.board.Keeps t.board ((tp, 0x010) :: logRegs) ([(tp, Cn.crdTileBattsCommitted), (tp, Cn.crdTilePayloadBytes), (tp, Cn.crdTileOutBytes)] ++ logCnts) [])) ∧
      (b.phase ≠ .carded → Completes (.battCommit p k) s (fun t => t = s)) ∧
      (∀ i c d, b.phase = .forwarding i → s.chainCore p pl e i = some c → s.chainCore p pl e (i + 1) = some d → e.target = 1 →
        (∀ u, 1024 * u < h.out → let off := 64 * e.dest + 1024 * u
          let n := min 1024 (h.out - 1024 * u)
          (s.inComputeHalf d (s.fillHalf d + off) n = false → Completes (.chainForward p k i u) s (fun t =>
            memRead t.mem (s.fillHalf d + off) n = s.rdBytes (s.fillHalf c + off) n ∧
            (∀ x, (x < s.fillHalf d + off ∨ s.fillHalf d + off + n ≤ x) → memByte t.mem x = memByte s.mem x) ∧
            t.board = s.board.inc (Pg.crdTile (c / 4)) Cn.crdTileChainBytes n ∧ { t with board := s.board, mem := s.mem } = s))) ∧
        Completes (.chainCommitNotice p k) s (fun t =>
          (t.feed p).batt k = some { b with phase := if i + 2 ≥ (s.chain pl e.rank).length then .committed else .forwarding (i + 1) } ∧ s.onlyBatt t p k ∧
          t.mem = ((outRanges h e (64 * e.dest)).foldl (fun s r => s.forwardBytes c d r.1 r.2) s).mem ∧ { t with feeds := s.feeds, mem := s.mem } = s))) ∧
    (∀ k p, s.partOfCore k = some p → s.atMark p = true → (s.feed p).invalid = false → (s.feed p).done = false → (s.feed p).arrived.contains k = false →
      (s.scoreboard p k = true → Completes (.barrierArrive k) s (fun t => t.feed p = { s.feed p with arrived := (s.feed p).arrived ++ [k] } ∧ s.onlyFeed t p ∧
        { t with board := s.board, feeds := s.feeds } = s ∧ s.board.Keeps t.board logRegs logCnts [])) ∧
      (s.scoreboard p k = false → Completes (.barrierArrive k) s (fun t => t = s))) ∧
    (∀ p, (s.feed p).done = false → s.partCores p ≠ [] → (s.partCores p).all (s.feed p).arrived.contains = true → Completes (.barrierComplete p) s (fun t =>
      t.feed p = { s.feed p with done := true } ∧ s.onlyFeed t p ∧ t.board.cnt Pg.tk Cn.tkBarriers = (s.board.cnt Pg.tk Cn.tkBarriers + 1) % 2 ^ 64 ∧
      (∀ k ∈ s.partCores p, t.board.flag (Pg.core k) F.coreWbufStateFillSealed = true) ∧ t.mem = s.mem ∧ (s.role = 0 → t.crown = s.crown ∧ t.net = s.net) ∧
      { t with board := s.board, feeds := s.feeds, crown := s.crown, net := s.net, freeCtr := s.freeCtr } = s))

/-! ### Fulling (09_fulling) -/

/-- R256, R261, R263, R264, R265, R270: a local segment or a SEG in the window that its contributor has not delivered is added exactly, and the node sends
every complete segment that may go, in order. A WIN lets segments go up to its INDEX; a release moves the window up by one. -/
def Obligations.SegmentsAreSummedAndSent : Prop :=
  ∀ (s : State) (n : Nat), n < 64 →
    let u := s.tree n
    u.results = [] → u.released ≤ u.up →
    (∀ g body i, s.admits g body 1 n i → s.ofOpen body n →
      let h := FullHdr.ofBytes body
      (u.released ≤ h.index → h.index < u.nseg → h.index < u.released + s.tWindow n → (u.con i).segs.contains h.index = false →
        (∀ vs, segBlock h (u.segLen h.index) body = some vs → Completes (.seg g body) s (fun t =>
          s.added t n i h.index vs ∧ s.oneWent t n ∧ s.onlyTreeWork t n ∧
          t.board.cnt (treePage n) Cn.fulSegsPeer = (s.board.cnt (treePage n) Cn.fulSegsPeer + 1) % 2 ^ 64 ∧
          ((s.tAll n && s.tRoot n) = false → t.board.cnt (treePage n) Cn.fulSegsUp = (s.board.cnt (treePage n) Cn.fulSegsUp + ((t.tree n).up - u.up)) % 2 ^ 64))) ∧
        (segBlock h (u.segLen h.index) body = none → Completes (.seg g body) s (fun t => { t with board := s.board } = s ∧
          t.board.cnt (treePage n) Cn.fulMalformed = (s.board.cnt (treePage n) Cn.fulMalformed + 1) % 2 ^ 64 ∧
          t.board.evBit (treePage n) F.fulEventMalformed.lsb = true ∧ s.board.Keeps t.board (evs [treePage n]) ((treePage n, Cn.fulMalformed) :: logCnts) []))) ∧
      ((h.index < u.released ∨ u.nseg ≤ h.index ∨ u.released + s.tWindow n ≤ h.index ∨ (u.con i).segs.contains h.index = true) →
        Completes (.seg g body) s (fun t => t = s.fulCount n Cn.fulWindowViolation 1))) ∧
    (∀ core seg c q d, s.tOp n = some (c, q, d) → u.ops.head? = some (c, q) → (s.partCores (s.partOf c)).contains core = true → u.left.contains seg = true →
      s.inService = true → s.tOn n = true → s.tLocal n = true → u.named (s.stepOf c) (s.attemptOf (s.stepOf c)) = 1 → u.dead = false → u.e = d.exponent →
      u.elements = d.gradElems → (u.con 0).segs.contains seg = false → u.released ≤ seg → seg < u.nseg → seg < u.released + s.tWindow n →
      let qs := (List.range (u.segLen seg)).map (fun i => fulledElem u.e (s.gradElem d (256 * seg + i)))
      Completes (.localSegment core n seg) s (fun t => (t.tree n).left = u.left.erase seg ∧
        s.added t n 0 seg (qs.map (fun q => q.1)) ∧ s.oneWent t n ∧ s.onlyTreeWork t n ∧
        (t.tree n).localSat = u.localSat + (qs.filter (fun q => q.2.1)).length ∧ (t.tree n).localNf = u.localNf + (qs.filter (fun q => q.2.2)).length ∧
        (u.left = [seg] → ((t.tree n).con 0).ended = some (1, (t.tree n).localSat, b2n (decide ((t.tree n).localNf ≠ 0)))) ∧
        t.board.cnt (treePage n) Cn.fulSegsLocal = (s.board.cnt (treePage n) Cn.fulSegsLocal + 1) % 2 ^ 64)) ∧
    (∀ g body, s.admits g body 3 n 0 → s.ofOpen body n → u.released < u.nseg → Completes (.win g body) s (fun t =>
      (t.tree n).winParent = max u.winParent (FullHdr.ofBytes body).index ∧ s.wentOn t n ∧ s.oneWent t n ∧ s.onlyTreeWork t n ∧
      { t.tree n with winParent := u.winParent, up := u.up } = u)) ∧
    (u.isOpen = true → u.dead = false → s.quiet = false → u.released < u.up → (s.tAll n = false ∨ s.tRoot n = true ∨ u.released < u.down) →
      (s.tAll n = false ∨ u.downEnd = none) → (u.released + 1 < u.nseg ∨ s.tTotals n = none ∨ u.endSent = true) →
      Completes (.segmentRelease n) s (fun t => (t.tree n).released = u.released + 1 ∧ (t.tree n).sumsOf u.released = none ∧
        (∀ k, k ≠ u.released → (t.tree n).sumsOf k = u.sumsOf k ∧ ∀ i, ((t.tree n).con i).segs.contains k = (u.con i).segs.contains k) ∧
        (t.tree n).winAt = (if u.winAt + 64 ≤ u.released + 1 then u.released + 1 else u.winAt) ∧
        (u.winAt + 64 ≤ u.released + 1 → (t.tree n).up = u.up → t.sendsAs (s.toKids n (s.tHead n 3 (u.released + 1 + s.tWindow n)))) ∧
        (u.released + 1 < u.winAt + 64 → (t.tree n).up = u.up → t.sendsAs s) ∧ (t.tree n).isOpen = true ∧ s.onlyTreeWork t n)) ∧
    ((u.isOpen = false ∨ u.dead = true ∨ s.quiet = true ∨ u.up ≤ u.released) → Completes (.segmentRelease n) s (fun t => t = s))

/-- R259, R265, R267, R268, R270, R271, R279: messages that fail a check are dropped and counted; a newer name opens an invocation and sends its WIN. ENDs add
up and go on, DOWN and DOWN_END are delivered and forwarded, a missed deadline is reported and silences the node; slot writes wait for a boundary. -/
def Obligations.TreesOpenEndAndMiss : Prop :=
  ∀ (s : State) (n : Nat), n < 64 →
    let u := s.tree n
    let counts := fun (c : Nat) (t : State) => t = s.fulCount n c 1
    let kinds := fun (g : Nat) (body : Bytes) => [Instr.seg g body, Instr.endMsg g body, Instr.win g body, Instr.down g body, Instr.downEnd g body]
    (∀ g body k c, k < 5 → (kinds g body)[k]? = some c → (FullHdr.ofBytes body).kind = k + 1 → (FullHdr.ofBytes body).tree = n → 32 ≤ body.length →
      s.quiet = false → roleTakes (s.board.groupRole g) 3 = true → s.sessionUp g = true →
      let h := FullHdr.ofBytes body
      ((s.inService = false ∨ s.tOn n = false) → Completes c s (counts Cn.fulDiscardState)) ∧
      (s.inService = true → s.tOn n = true → s.tSender n h = none → Completes c s (counts Cn.fulForeign)) ∧
      (∀ i, s.admits g body (k + 1) n i →
        (u.named h.step h.attempt = 0 → Completes c s (counts Cn.fulStale)) ∧
        (u.named h.step h.attempt = 1 → u.dead = true → Completes c s (fun t => t = s)) ∧
        (u.named h.step h.attempt = 1 → u.dead = false → ¬(u.e = h.e ∧ u.elements = h.elements) → Completes c s (counts Cn.fulEMismatch)) ∧
        (u.named h.step h.attempt = 2 → exec c s = exec c (s.tOpen n h.step h.attempt h.e h.elements)))) ∧
    (∀ g body c, (s.quiet = true ∨ roleTakes (s.board.groupRole g) 3 = false) → c ∈ kinds g body → Completes c s (fun t =>
      t = s.onBoard (fun b => b.inc (Pg.nol g) (if s.quiet then Cn.nolHeldDiscards else Cn.nolRoleDiscards) 1))) ∧
    (∀ step att e el, let t := s.tOpen n step att e el
      t.tree n = { Tree.init with applied := u.applied, ops := u.ops, left := u.left, level := u.level, localSat := u.localSat, localNf := u.localNf, audit := u.audit, isOpen := true, seen := true, step := step, attempt := att, e := e, elements := el } ∧
      t.sendsAs (s.toKids n { kind := 3, tree := n, attempt := att, e := e, step := step, index := s.tWindow n, elements := el, width := 0, nonfin := 0, rack := s.rack, contrib := 0, sat := 0 }) ∧
      t.board.flag (treePage n) (F.fulTreeStateOpen (treeSlot n)) = true ∧ s.onlyTreeWork t n ∧ t.mem = s.mem) ∧
    (u.results = [] → u.audit = [] → ¬ s.mayGo n u.up →
      (∀ g body i, s.admits g body 2 n i → s.ofOpen body n → (u.con i).ended = none →
        let h := FullHdr.ofBytes body
        (u.released < u.nseg → Completes (.endMsg g body) s (fun t => ((t.tree n).con i).ended = some (h.contrib, h.sat, h.nonfin) ∧
          (∀ j, j ≠ i → (t.tree n).con j = u.con j) ∧ t.sendsAs s ∧ t.mem = s.mem ∧ s.onlyTreeWork t n)) ∧
        (u.nseg ≤ u.released → u.endSent = false → s.tAll n = false → s.tOp n = none → (s.tIds n).all (fun j => j == i || (u.con j).ended.isSome) = true →
          Completes (.endMsg g body) s (fun t =>
            let x := (s.tIds n).map (fun j => if j = i then (h.contrib, h.sat, h.nonfin) else (u.con j).ended.getD (0, 0, 0))
            let total := ((x.map (fun y => y.1)).sum, (x.map (fun y => y.2.1)).sum, (x.map (fun y => y.2.2)).foldl max 0)
            t.sendsAs (s.sendFull (s.tParent n).2 (s.tEndHdr n 2 total).bytes) ∧ (t.tree n).isOpen = false ∧ t.mem = s.mem)) ) ∧
      (∀ g body, s.admits g body 4 n 0 → s.ofOpen body n →
        let h := FullHdr.ofBytes body
        ∀ vs, h.index = u.down → u.released ≤ h.index → h.index < u.nseg → h.index < u.released + s.tWindow n → segBlock h (u.segLen h.index) body = some vs →
          Completes (.down g body) s (fun t => (t.tree n).down = u.down + 1 ∧ (t.tree n).results = [] ∧ t.mem = (s.tDeliver n h.index vs).mem ∧
            t.sendsAs ((List.range (s.tKids n)).foldl (fun s c => s.sendSums n 4 h.index (s.tChild n c).2 vs true) s) ∧
            t.board.cnt (treePage n) Cn.fulSegsDown = (s.board.cnt (treePage n) Cn.fulSegsDown + 1 + s.tKids n) % 2 ^ 64 ∧ s.onlyTreeWork t n)) ∧
      (∀ g body, s.admits g body 5 n 0 → s.ofOpen body n → u.nseg ≤ u.released → u.endSent = true →
        let h := FullHdr.ofBytes body
        let x := (h.contrib, h.sat, h.nonfin)
        (s.tOp n = none → Completes (.downEnd g body) s (fun t => t.sendsAs (s.toKids n (s.tEndHdr n 5 x)) ∧ (t.tree n).isOpen = false ∧
          t.board.flag (treePage n) (F.fulTreeStateOpen (treeSlot n)) = false ∧ t.mem = s.mem)) ∧
        (∀ c q d o, c < 256 → s.tOp n = some (c, q, d) → (s.ctx c).ops = [o] → o.qindex = q → (s.ctx c).owed = [] → s.ringRoom c = true → o.complete = false →
          o.outW = [] → Completes (.downEnd g body) s (fun t => (t.ctx c).ops = [] ∧ (t.tree n).isOpen = false ∧
            s.recorded t c { o.record with aux := sat32 h.sat, nonfinite := decide (h.nonfin ≠ 0), satCount := u.localSat, nonfiniteCount := u.localNf, gtcEnd := s.board.gtc } ∧
            ∀ a, s.offSlot c a → memByte t.mem a = memByte s.mem a))) ) ∧
    (∀ k w, u.isOpen = true → u.dead = false → s.inService = true → u.watch = some (k, w) → s.tComplete n k = false → s.tDeadline n ≤ w →
      Completes (.missingDeadline n) s (fun t =>
        let mask := maskOfList ((s.tIds n).filter (fun i => !(u.con i).segs.contains k))
        t.tree n = { u with dead := true } ∧ s.onlyTree t n ∧ t.board.fld (treePage n) (F.fulTreeMissingMask (treeSlot n)) = mask % 2 ^ 16 ∧
        t.board.evBit (treePage n) F.fulEventMissing.lsb = true ∧ t.board.cnt (treePage n) Cn.fulMissing = (s.board.cnt (treePage n) Cn.fulMissing + 1) % 2 ^ 64 ∧
        (s.holdsTop = false → t.sendsAs (s.toCrown 1 0x21 (bodyOf 32 [(0, 2, s.rack), (2, 1, n), (3, 1, u.attempt), (4, 4, u.step), (8, 4, k), (12, 2, mask)])) ∧
          { t with board := s.board, trees := s.trees, net := s.net, freeCtr := s.freeCtr } = s))) ∧
    (∀ l off v, s.mayWrite l (Pg.ful (n / 16)) → off ∈ treeCfgOffs (treeSlot n) → reservedBits .ful off (v : Word).toNat = 0 →
      let bad := s.board.dropFul (treePage n) (n / 16) off v.toNat
      Completes (.treeCfgWrite l (n / 16) off v) s (fun t => t.trees = s.trees ∧
        (∀ i < 32, (t.board.rd (treePage n) off).getLsbD i = if (storedBits .ful off).testBit i && !bad.testBit i then v.getLsbD i else (s.board.rd (treePage n) off).getLsbD i) ∧
        (bad ≠ 0 → t.board.fld Pg.mod F.modAccessLastCause = 2 ∧ t.board.evBit Pg.mod F.modEventAccessError.lsb = true) ∧ { t with board := s.board } = s ∧
        ({ s.board with latch := t.board.latch } : Board).Keeps t.board ((treePage n, off) :: hostRegs) hostCnts []))

/-- R117, R155, R301, R329, R331: a collective that passes its checks is in flight; FULL_REDUCE gives its tree segments to send, the root of a BROADCAST
and every member of an ALLGATHER send their data down the heap, and completion passes on what has come. A PEER message in writable pages is written. -/
def Obligations.CollectivesAndPeerMessages : Prop :=
  ∀ (s : State) (n : Nat), n < 256 →
    let flight := fun (t : State) (raw : Bytes) (ws : List (Nat × Bytes)) => t.ci n = (s.ci n + 1) % 65536 ∧ (∀ m, m ≠ n → t.ctx m = s.ctx m) ∧ t.mem = s.mem ∧
      t.board.cnt Pg.opq0 Cn.opq0OpsStarted = (s.board.cnt Pg.opq0 Cn.opq0OpsStarted + 1) % 2 ^ 64 ∧
      (∃ q, (t.ctx n).ops = (s.ctx n).ops ++ [q] ∧ q.qindex = s.ci n ∧ q.desc = raw ∧ q.complete = false ∧ q.outW = ws ∧ q.record.type = 1)
    let refused := fun (t : State) (d : Desc) (v : Nat × Nat) => (s.ctx n).ops = [] →
      s.recorded t n { s.opRecord n (s.ci n) d with type := 2, cause := v.1, slot := v.2, gtcEnd := s.board.gtc } ∧ t.sendsAs s ∧ t.trees = s.trees ∧
      ∀ a, s.offSlot n a → memByte t.mem a = memByte s.mem a
    let passes := fun (o : OpDef) (d : Desc) => (s.validate n o d).1 = 0 ∧ s.wbufHit n d = none ∧ s.sparseBad n d = none
    (∀ raw, let d := Desc.ofBytes raw
      (s.mayStart (fullDef s) n raw → passes (fullDef s) d → (∀ o ∈ (s.tree (d.param 1)).ops, (s.tHolds (d.param 1) o).isSome = true) →
        let u := s.tree (d.param 1)
        Completes (.fullReduce n) s (fun t => flight t raw [] ∧ s.onlyTree t (d.param 1) ∧ t.sendsAs s ∧
          t.tree (d.param 1) = (if u.ops = [] then { u with ops := [(n, s.ci n)], left := List.range (ceilDiv d.gradElems 256), level := d.level, localSat := 0, localNf := 0 }
            else { u with ops := u.ops ++ [(n, s.ci n)] }))) ∧
      (s.mayStart (fullDef s) n raw → (s.validate n (fullDef s) d).1 ≠ 0 → Completes (.fullReduce n) s (fun t => refused t d (s.validate n (fullDef s) d))) ∧
      (s.mayStart broadcastDef n raw → passes broadcastDef d → Completes (.broadcast n) s (fun t => flight t raw [] ∧ t.trees = s.trees ∧
        t.sendsAs (if d.param 0 = s.rank then s.castSend n d else s))) ∧
      (s.mayStart broadcastDef n raw → (s.validate n broadcastDef d).1 ≠ 0 → Completes (.broadcast n) s (fun t => refused t d (s.validate n broadcastDef d))) ∧
      (s.mayStart (allgatherDef s) n raw → passes (allgatherDef s) d → Completes (.allgather n) s (fun t => flight t raw ((allgatherDef s).run s n d).writes ∧
        t.trees = s.trees ∧ t.sendsAs (s.gatherSendOwn n d))) ∧
      (s.mayStart (allgatherDef s) n raw → (s.validate n (allgatherDef s) d).1 ≠ 0 → Completes (.allgather n) s (fun t => refused t d (s.validate n (allgatherDef s) d)))) ∧
    (∀ o, (s.ctx n).ops = [o] → (s.ctx n).owed = [] → s.ringRoom n = true → o.complete = false → o.mark = false →
      let d := Desc.ofBytes o.desc
      (d.opcode ∈ [0x71, 0x72] → d.digestEn = false → Completes (.operatorComplete n o.qindex) s (fun t => (t.ctx n).ops = [] ∧
        s.recorded t n { o.record with gtcEnd := s.board.gtc } ∧ (∀ a, s.offSlot n a → memByte t.mem a = memByte (s.wrAll o.outW).mem a) ∧
        t.sendsAs (if d.opcode = 0x72 then (s.wrAll o.outW).gatherForward n d else if d.param 0 = s.rank then s else (s.wrAll o.outW).castSend n d) ∧
        (∀ m, m ≠ n → t.ctx m = s.ctx m) ∧ { t with board := s.board, ctxs := s.ctxs, mem := s.mem, net := s.net, freeCtr := s.freeCtr } = s)) ∧
      (d.opcode = 0x70 → Completes (.operatorComplete n o.qindex) s (fun t => t = s))) ∧
    (∀ g body, s.quiet = false → roleTakes (s.board.groupRole g) 4 = true → s.sessionUp g = true → 16 ≤ body.length →
      let dest := leAt body 0 8 % 2 ^ 52
      let m := leAt body 8 1
      let w := ((Fmt.ofCode (leAt body 9 1)).map Fmt.bits).getD 8
      let elems := leAt body 12 4
      let written := fun (bs : Bytes) (t : State) => memRead t.mem dest bs.length = bs ∧ (∀ a, (a < dest ∨ dest + bs.length ≤ a) → memByte t.mem a = memByte s.mem a) ∧ { t with mem := s.mem } = s
      (leAt body 10 1 ≠ 1 → s.peerOk m dest (body.length - 12) = true → Completes (.peerMessage g body) s (written (body.drop 12))) ∧
      (leAt body 10 1 = 1 → s.peerOk m dest (ceilDiv (w * elems) 8) = true → ∀ bs, peerData w elems (body.drop 16) = some bs →
        Completes (.peerMessage g body) s (written bs)) ∧
      (leAt body 10 1 = 1 → s.peerOk m dest (ceilDiv (w * elems) 8) = true → peerData w elems (body.drop 16) = none → Completes (.peerMessage g body) s (fun t =>
        t.board.cnt (Pg.nol g) Cn.nolPeerRefused = (s.board.cnt (Pg.nol g) Cn.nolPeerRefused + 1) % 2 ^ 64 ∧
        (s.consumer m dest = none → { t with board := s.board } = s) ∧
        (∀ o, m < 256 → (s.ctx m).ops = [o] → (s.ctx m).owed = [] → s.ringRoom m = true → s.consumer m dest = some o.qindex → o.complete = false →
          s.recorded t m { o.record with type := 2, cause := Cause.linkBlock, slot := 7, aux := 0, digestValid := false, digest := 0, gtcEnd := s.board.gtc }))) ∧
      (s.peerOk m dest (if leAt body 10 1 = 1 then ceilDiv (w * elems) 8 else body.length - 12) = false → Completes (.peerMessage g body) s (fun t =>
        t.board.cnt (Pg.nol g) Cn.nolPeerRefused = (s.board.cnt (Pg.nol g) Cn.nolPeerRefused + 1) % 2 ^ 64 ∧
        t.board.evBit (Pg.nol g) F.nolEventPeerRefused.lsb = true ∧ { t with board := s.board } = s ∧
        s.board.Keeps t.board (evs [Pg.nol g]) ((Pg.nol g, Cn.nolPeerRefused) :: logCnts) [])))

/-! ### The hatband (10_hatband_and_nolino) -/

/-- R283, R284, R296, R308, R309, R310, R311: an engine trains to UP on its 16 lowest good lanes, and goes DOWN on loss of light, without a spare or
by failed replays; its messages go on other engines. A lane moves to the lowest spare, retrains, and rejoins or is marked bad and logged. -/
def Obligations.EnginesAndLanes : Prop :=
  ∀ (s : State) (e : Nat), e < 48 →
    let g := e / 4
    let hp := Pg.hb e
    let x := s.engine e
    let tx := fun (m : Nat) => goodLanes m (s.board.fld hp F.hbTxBadLanes)
    let rx := fun (m : Nat) => goodLanes m (s.board.fld hp F.hbRxBadLanes)
    let mayUp := s.board.engState e = Eng.training ∨ (s.board.engState e = Eng.down ∧ s.board.flag hp F.hbStatusLightOk = true)
    let engRegs := [(hp, 0x010), (hp, 0x100), (hp, 0x104), (hp, 0x108), (hp, 0x10C), (hp, 0x110), (Pg.nol g, 0x010)]
    let quietly := fun (t : State) => s.onlyEngine t e ∧ t.sendsNone s ∧ { t with board := s.board, net := s.net } = s ∧
      s.board.Keeps t.board (engRegs ++ evs [hp]) (pageCnts hp ++ logCnts) []
    let downed := fun (t : State) => t.board.engState e = Eng.down ∧ t.engine e = Engine.init ∧ t.board.evBit hp F.hbEventDown.lsb = true ∧
      t.board.evBit Pg.hbGlobal F.hbGlobalEventEngineDown.lsb = true ∧ t.board.cnt hp Cn.hbDowns = (s.board.cnt hp Cn.hbDowns + 1) % 2 ^ 64 ∧
      Out.crossing (clockCode (.lane e)) false ∈ t.board.msgs ∧
      t.board.cnt (Pg.nol g) Cn.nolPartialDiscards = (s.board.cnt (Pg.nol g) Cn.nolPartialDiscards + x.partials.length) % 2 ^ 64 ∧
      (∀ o, o ≠ e → o < 48 → t.board.engState o = s.board.engState o) ∧
      (s.upEngines g ≠ [e] → t.board.session g = s.board.session g ∧ (∀ o, o / 4 ≠ g → t.engine o = s.engine o) ∧
        t.board.cnt (Pg.nol g) Cn.nolMsgsResent = (s.board.cnt (Pg.nol g) Cn.nolMsgsResent + ((s.group g).unacked.filter (fun m => m.engine == e)).length) % 2 ^ 64 ∧
        (∀ m ∈ (t.group g).unacked, m.engine ≠ e) ∧ (t.group g).unacked.map (fun m => (m.cls, m.gmsn, m.sub, m.body)) =
          (s.group g).unacked.map (fun m => (m.cls, m.gmsn, m.sub, m.body)))
    (∀ a b half, mayUp → s.engineUsable e = true → 16 ≤ (tx a).length → 16 ≤ (rx b).length → Completes (.engineUp e a b half) s (fun t =>
      t.board.engState e = Eng.up ∧ t.board.fld hp F.hbTxActiveLanes = maskOfList ((tx a).take 16) ∧ t.board.fld hp F.hbRxActiveLanes = maskOfList ((rx b).take 16) ∧
      t.board.fld hp F.hbTxBadLanes = 2 ^ 18 - 1 - maskOfList (tx a) ∧ t.board.fld hp F.hbRxBadLanes = 2 ^ 18 - 1 - maskOfList (rx b) ∧
      t.board.flag hp F.hbStatusRateHalf = half ∧
      ((s.upEngines g ≠ [] ∨ s.board.session g ≠ Ses.none) → t.board.msgs = s.board.msgs ∧ s.onlyEngine t e ∧ t.engine e =
        { Engine.init with txMap := (tx a).take 16, rxMap := (rx b).take 16, txSpare := (tx a).drop 16, rxSpare := (rx b).drop 16 } ∧
        { t with board := s.board, net := s.net, clk := s.clk } = s ∧ s.board.Keeps t.board engRegs [] []) ∧
      (s.upEngines g = [] → s.board.session g = Ses.none → t.board.session g = Ses.offered ∧ Out.msg g 1 0x01 0 (s.offerBody g) ∈ t.board.msgs))) ∧
    (∀ a b half, (¬ mayUp ∨ s.engineUsable e = false ∨ (tx a).length < 16 ∨ (rx b).length < 16) → Completes (.engineUp e a b half) s (fun t => t = s)) ∧
    (s.engUp e = true → Completes (.engineDown e) s downed) ∧ (s.engUp e = false → Completes (.engineDown e) s (fun t => t = s)) ∧
    (∀ k < 12, Completes (.lightLoss k) s (fun t => ∀ o ∈ groupEngines k,
      (s.board.engState o = Eng.dark → t.board.engState o = Eng.dark ∧ t.engine o = s.engine o) ∧
      (s.board.engState o ≠ Eng.dark → t.board.flag (Pg.hb o) F.hbStatusLightOk = false ∧ t.board.evBit (Pg.hb o) F.hbEventLightLoss.lsb = true) ∧
      (s.board.engState o ∈ [Eng.training, Eng.up, Eng.loopback] → t.board.engState o = Eng.down ∧ t.engine o = Engine.init) ∧
      (s.board.engState o ∈ [Eng.lightCheck, Eng.down] → t.board.engState o = s.board.engState o))) ∧
    (∀ k < 12, Completes (.lightReturn k) s (fun t => (∀ o ∈ groupEngines k,
      (s.board.engState o = Eng.dark → t.board.engState o = Eng.dark) ∧ (s.board.engState o ≠ Eng.dark → t.board.flag (Pg.hb o) F.hbStatusLightOk = true) ∧
      (((s.board.engState o = Eng.lightCheck ∧ St.training ≤ s.board.st) ∨ s.board.engState o = Eng.down) → t.board.engState o = Eng.training) ∧
      (s.board.engState o ∈ [Eng.training, Eng.up, Eng.loopback] → t.board.engState o = s.board.engState o)) ∧
      { t with board := s.board } = s ∧ s.board.Keeps t.board ((Pg.nol k, 0x010) :: (groupEngines k).map (fun o => (Pg.hb o, 0x010))) [] [])) ∧
    (∀ lane c, (c = .laneRetrain e lane ∨ c = .ringUnlock e lane) → s.engUp e = true → x.rxMap.contains lane = true → x.rxRetrain.contains lane = false → lane < 18 →
      (∀ y ys, x.rxRetrain = [] → x.rxSpare = y :: ys → Completes c s (fun t =>
        t.engine e = { x with rxRetrain := [lane], swapped := true, replayFails := 0 } ∧ t.board.msgs = s.board.msgs ++ [.swap e lane y] ∧
        t.board.fld hp F.hbLastRetrainLane = lane ∧ t.board.fld hp F.hbLastRetrainDir = 1 ∧ t.board.fld hp F.hbLastRetrainResult = 0 ∧
        t.board.cnt hp Cn.hbRetrains = (s.board.cnt hp Cn.hbRetrains + 1) % 2 ^ 64 ∧ t.board.evBit hp F.hbEventRetrain.lsb = true ∧
        (c = .ringUnlock e lane → t.board.evBit hp F.hbEventRingUnlock.lsb = true) ∧ s.onlyEngine t e ∧ { t with board := s.board, net := s.net } = s ∧
        s.board.Keeps t.board (engRegs ++ evs [hp]) (pageCnts hp ++ logCnts) [.swap e lane y])) ∧
      (x.rxRetrain = [] → x.rxSpare = [] → Completes c s downed) ∧
      (∀ l rest, x.rxRetrain = l :: rest → Completes c s (fun t => t.engine e = { x with rxRetrain := l :: addSorted rest lane } ∧ quietly t))) ∧
    (∀ lane, (s.engUp e = false ∨ x.rxMap.contains lane = false ∨ x.rxRetrain.contains lane = true) → Completes (.laneRetrain e lane) s (fun t => t = s)) ∧
    (∀ a b, s.engUp e = true → x.txMap.contains a = true → x.txSpare.contains b = true → a < 18 → Completes (.laneSwapRequest e a b) s (fun t =>
      t.engine e = { x with txMap := moveLane x.txMap a b, txSpare := x.txSpare.erase b, txVersion := (x.txVersion + 1) % 256, txRetrain := addSorted (x.txRetrain.erase a) a } ∧
      t.board.fld hp F.hbTxActiveLanes = maskOfList (moveLane x.txMap a b) % 2 ^ 18 ∧ t.board.fld hp F.hbLastRetrainDir = 0 ∧ t.board.fld hp F.hbLastRetrainLane = a ∧
      t.board.cnt hp Cn.hbRetrains = (s.board.cnt hp Cn.hbRetrains + 1) % 2 ^ 64 ∧ t.board.evBit hp F.hbEventRetrain.lsb = true ∧ quietly t)) ∧
    (∀ v a b rest l, s.engUp e = true → v % 256 ≠ x.rxVersion → x.rxRetrain = a :: l → x.rxSpare = b :: rest → x.rxMap.contains a = true →
      Completes (.newMapVersion e v) s (fun t => t.engine e = { x with rxVersion := v % 256, rxMap := moveLane x.rxMap a b, rxSpare := rest } ∧
        t.board.fld hp F.hbRxActiveLanes = maskOfList (moveLane x.rxMap a b) % 2 ^ 18 ∧ quietly t)) ∧
    (∀ lane ok, s.engUp e = true → x.txRetrain.contains lane = true → lane < 18 → s.store.logCount + 1 < logMax →
      let n := Tbl.get (fun _ => 0) x.attempts lane + 1
      Completes (.laneRetrainDone e false lane ok) s (fun t =>
        (ok = true → t.engine e = { x with attempts := Tbl.set (fun _ => 0) x.attempts lane 0, txRetrain := x.txRetrain.erase lane, txSpare := addSorted x.txSpare lane } ∧
          t.board.fld hp F.hbLastRetrainResult = 1 ∧ quietly t) ∧
        (ok = false → n < 3 → t.engine e = { x with attempts := Tbl.set (fun _ => 0) x.attempts lane n } ∧ t.board = s.board ∧ quietly t) ∧
        (ok = false → 3 ≤ n → t.engine e = { x with attempts := Tbl.set (fun _ => 0) x.attempts lane 0, txRetrain := x.txRetrain.erase lane } ∧
          t.board.fld hp F.hbLastRetrainResult = 2 ∧ (t.board.fld hp F.hbTxBadLanes).testBit lane = true ∧ t.board.evBit hp F.hbEventRetrainFail.lsb = true ∧
          t.bup.sinceMerge = s.bup.sinceMerge ++ [⟨8, 4, e, lane, s.store.lifeBringups⟩]))) ∧
    (∀ lane ok, s.engUp e = true → x.rxRetrain = [lane] → x.rxMap.contains lane = false → lane < 18 → s.store.logCount + 1 < logMax →
      let n := Tbl.get (fun _ => 0) x.attempts (18 + lane) + 1
      Completes (.laneRetrainDone e true lane ok) s (fun t =>
        (ok = true → t.engine e = { x with attempts := Tbl.set (fun _ => 0) x.attempts (18 + lane) 0, rxRetrain := [], rxSpare := addSorted x.rxSpare lane } ∧
          t.board.fld hp F.hbLastRetrainResult = 1 ∧ t.board.fld hp F.hbLastRetrainDir = 1 ∧ quietly t) ∧
        (ok = false → n < 3 → t.engine e = { x with attempts := Tbl.set (fun _ => 0) x.attempts (18 + lane) n } ∧ t.board = s.board ∧ quietly t) ∧
        (ok = false → 3 ≤ n → t.engine e = { x with attempts := Tbl.set (fun _ => 0) x.attempts (18 + lane) 0, rxRetrain := [] } ∧
          t.board.fld hp F.hbLastRetrainResult = 2 ∧ (t.board.fld hp F.hbRxBadLanes).testBit lane = true ∧ t.board.evBit hp F.hbEventRetrainFail.lsb = true ∧
          t.bup.sinceMerge = s.bup.sinceMerge ++ [⟨8, 4, e, 256 + lane, s.store.lifeBringups⟩]))) ∧
    ((s.engUp e = false ∨ x.asked = false) → Completes (.replayFail e) s (fun t => t = s)) ∧
    (s.engUp e = true → x.asked = true → ¬(x.swapped = true ∧ 7 ≤ x.replayFails) → Completes (.replayFail e) s (fun t =>
      (t.engine e).replayFails = x.replayFails + 1 ∧ (t.engine e).rxSeq = x.rxSeq ∧ t.board.msgs = (s.sendIdle e true).board.msgs ∧
      t.board.cnt hp Cn.hbReplayFails = (s.board.cnt hp Cn.hbReplayFails + 1) % 2 ^ 64 ∧ s.onlyEngine t e ∧ { t with board := s.board, net := s.net } = s)) ∧
    (s.engUp e = true → x.asked = true → x.swapped = true → 7 ≤ x.replayFails → Completes (.replayFail e) s downed)

/-- R289, R292, R293, R294, R297, R299, R300, R307, R495: replays resend the buffered flits; an intact flit acknowledges, grants and, at the expected SEQ, is
delivered; another is dropped and counted. A message is delivered once, as its class and SUBKIND say; an RDATA completes its read or asks again. -/
def Obligations.FlitsMessagesAndRemoteReads : Prop :=
  ∀ s : State,
    (∀ e flit, e < 48 → (s.board.engState e ∉ [Eng.up, Eng.loopback] → Completes (.flitReceive e flit) s (fun t => t = s)) ∧
      (s.board.engState e = Eng.loopback → s.board.fld (Pg.hb e) F.hbControlLoopback = 0 → s.board.fld (Pg.hb e) F.hbControlFarLoop = 0 →
        Completes (.flitReceive e flit) s (fun t => t.board.msgs = s.board.msgs ++ [.flit e flit] ∧ { t with board := s.board, freeCtr := s.freeCtr } = s ∧
          s.board.Keeps t.board [] (pageCnts (Pg.hb e)) [.flit e flit]))) ∧
    (∀ e, e < 48 → s.engUp e = true →
      let g := e / 4
      let hp := Pg.hb e
      let x := s.engine e
      let replays := fun (a : Nat) (t : State) => t.sendsAs ((x.replay.dropWhile (fun p => !(p.1 == a))).foldl (fun s p => s.sendFlit e 2 false p.1 p.2) s) ∧
        t.board.evBit hp F.hbEventReplay.lsb = true ∧ t.board.cnt hp Cn.hbReplays = (s.board.cnt hp Cn.hbReplays + 1) % 2 ^ 64 ∧
        (t.engine e).replay = x.replay ∧ s.onlyEngine t e ∧ { t with board := s.board, net := s.net } = s
      let onlyLink := fun (t : State) => { t with board := s.board, net := s.net, freeCtr := s.freeCtr } = s ∧ (∀ o, o ≠ e → t.engine o = s.engine o) ∧
        (∀ k, k ≠ g → t.group k = s.group k)
      (∀ a, Completes (.replayReq e a) s (replays a)) ∧
      (x.replay = [] → Completes (.ackTimeout e) s (fun t => t = s)) ∧
      (∀ p ps, x.replay = p :: ps → Completes (.ackTimeout e) s (fun t => replays p.1 t ∧ t.board.cnt hp Cn.hbAckTimeouts = (s.board.cnt hp Cn.hbAckTimeouts + 1) % 2 ^ 64)) ∧
      (∀ flit, (flit.length ≠ 256 ∨ crc32c (flit.take 12 ++ flit.drop 16) ≠ leAt flit 12 4) → Completes (.flitReceive e flit) s (fun t =>
        t.board.cnt hp Cn.hbRxCrcFails = (s.board.cnt hp Cn.hbRxCrcFails + 1) % 2 ^ 64 ∧ (t.engine e).asked = true ∧ (t.engine e).rxSeq = x.rxSeq ∧
        t.board.msgs = (if x.asked then s else s.sendIdle e true).board.msgs ∧ (∀ k, t.group k = s.group k) ∧ onlyLink t)) ∧
      (∀ flit, flit.length = 256 → crc32c (flit.take 12 ++ flit.drop 16) = leAt flit 12 4 → x.queue = [] → (s.group g).waiting = [] →
        let h := leAt flit 0 12
        let seq := bitsOf h 31 16
        let behind := (x.rxSeq + 65536 - seq) % 65536
        let open_ := fun (p : Nat × TxFlit) => decide (0 < (bitsOf h 47 32 + 65536 - p.1) % 65536) && decide ((bitsOf h 47 32 + 65536 - p.1) % 65536 ≤ 32768)
        let taken := fun (t : State) => (t.engine e).replay = x.replay.filter (fun p => !(x.replay.filter open_).contains p) ∧
          (bitsOf h 50 48 < 5 → x.granted.length = 5 → (t.engine e).granted[bitsOf h 50 48]? = some (bitsOf h 63 52)) ∧ (t.engine e).txSeq = x.txSeq
        h.testBit 2 = false →
          (bitsOf h 1 0 ≠ 2 → Completes (.flitReceive e flit) s (fun t => taken t ∧ (t.engine e).rxSeq = x.rxSeq ∧ t.sendsNone s ∧ onlyLink t)) ∧
          (bitsOf h 1 0 = 2 → 0 < behind → behind ≤ 32768 → Completes (.flitReceive e flit) s (fun t => taken t ∧ (t.engine e).rxSeq = x.rxSeq ∧ t.sendsNone s ∧
            t.board.cnt hp Cn.hbRxDuplicates = (s.board.cnt hp Cn.hbRxDuplicates + 1) % 2 ^ 64 ∧ onlyLink t)) ∧
          (bitsOf h 1 0 = 2 → 32768 < behind → Completes (.flitReceive e flit) s (fun t => taken t ∧ (t.engine e).rxSeq = x.rxSeq ∧ (t.engine e).asked = true ∧ onlyLink t)) ∧
          (bitsOf h 1 0 = 2 → behind = 0 → bitsOf h 6 4 < 5 →
            let cls := bitsOf h 6 4
            let bs := (if h.testBit 7 then [] else Tbl.get (fun _ => ([] : Bytes)) x.partials cls) ++ (flit.drop 16).take (16 * bitsOf h 12 9)
            let delivered := fun (u : State) => taken u ∧ (u.engine e).rxSeq = (x.rxSeq + 1) % 65536 ∧ (u.engine e).asked = false ∧ (u.engine e).replayFails = 0 ∧
              u.board.cnt hp Cn.hbRxFlits = (s.board.cnt hp Cn.hbRxFlits + 1) % 2 ^ 64 ∧ u.sendsNone s ∧ onlyLink u
            (h.testBit 8 = false → Completes (.flitReceive e flit) s (fun t => delivered t ∧ Tbl.get (fun _ => ([] : Bytes)) (t.engine e).partials cls = bs)) ∧
            (h.testBit 8 = true → ∃ u, delivered u ∧ Tbl.get (fun _ => ([] : Bytes)) (u.engine e).partials cls = [] ∧
              exec (.flitReceive e flit) s = exec (.messageReceive g cls (leAt bs 0 4) (leAt bs 8 1) ((bs.drop 16).take (leAt bs 4 4))) u)))) ∧
    (∀ g cls gmsn sub body, g < 12 → cls < 5 → ¬(cls = 1 ∧ sub = 1) →
      let x := s.group g
      let off := x.offset cls gmsn
      let n := x.rxLow.getD cls 0 + off
      let u := (s.setGroup g (x.deliver cls gmsn)).onBoard (fun b => b.inc (Pg.nol g) Cn.nolMsgsRx 1)
      ((2 ^ 31 ≤ off ∨ (x.rxSeen.getD cls []).contains n = true) → Completes (.messageReceive g cls gmsn sub body) s (fun t =>
        t = s.onBoard (fun b => b.inc (Pg.nol g) Cn.nolMsgDuplicates 1))) ∧
      (off ≤ 4096 → (x.rxSeen.getD cls []).contains n = false → x.rxLow.length = 5 → x.rxSeen.length = 5 → (x.rxSeen.getD cls []).length ≤ 4096 →
        (2 ^ 31 ≤ (x.deliver cls gmsn).offset cls gmsn ∨ ((x.deliver cls gmsn).rxSeen.getD cls []).contains n = true) ∧
          (cls ≠ 1 → s.quiet = true → exec (.messageReceive g cls gmsn sub body) s = .next (u.onBoard (fun b => b.inc (Pg.nol g) Cn.nolHeldDiscards 1))) ∧
          ((cls = 1 ∨ s.quiet = false) → roleTakes (s.board.groupRole g) cls = false →
            exec (.messageReceive g cls gmsn sub body) s = .next (u.onBoard (fun b => b.inc (Pg.nol g) Cn.nolRoleDiscards 1))) ∧
          (∀ c, (cls, sub, c) ∈ messageRows g body s.board.gtc → exec (.messageReceive g cls gmsn sub body) s = exec c u))) ∧
    (∀ g body r, s.quiet = false → roleTakes (s.board.groupRole g) 2 = true → s.sessionUp g = true →
      s.net.rreads.find? (fun q => q.tag == leAt body 0 2 && q.attempt == leAt body 2 1) = some r → (s.core r.core).waiting = [] → (s.core r.core).task = none →
      let kept := s.net.rreads.filter (fun (q : RRead) => decide (q.tag ≠ leAt body 0 2))
      (leAt body 3 1 = 0 → 64 * (leAt body 4 1 + 1) = r.len → body.length = 16 + r.len → Completes (.rdata g body) s (fun t =>
        t.net.rreads = kept ∧ (t.core r.core).reads = (s.core r.core).reads.filter (fun q => !(q.tag == leAt body 0 2)) ∧ t.sendsNone s ∧
        (∀ i < r.len, Tbl.get (fun _ => (none : Option Byte)) t.tier.remote (remoteKey (r.remote / 2 ^ 28) (r.remote % 2 ^ 28 * Lay.page + r.offset + i)) = body[16 + i]?) ∧
        t.mem = s.mem)) ∧
      ((leAt body 3 1 = 1 ∨ leAt body 3 1 = 2) → r.attempt < 4 → Completes (.rdata g body) s (fun t =>
        t.net.rreads = s.net.rreads.map (fun q => if q.tag = r.tag then { r with attempt := r.attempt + 1 } else q) ∧
        t.board.msgs = (s.sendRRead { r with attempt := r.attempt + 1 }).board.msgs ∧ { t with board := s.board, net := s.net, freeCtr := s.freeCtr } = s)) ∧
      ((leAt body 3 1 = 1 ∨ leAt body 3 1 = 2) → 4 ≤ r.attempt → Completes (.rdata g body) s (fun t => t.net.rreads = s.net.rreads.filter (fun (q : RRead) => decide (q.tag ≠ r.tag)) ∧
        (t.core r.core).reads = (s.core r.core).reads.filter (fun q => !(q.tag == r.tag)) ∧ t.sendsNone s ∧ t.mem = s.mem))) ∧
    (∀ g body, s.quiet = false → s.net.rreads.find? (fun q => q.tag == leAt body 0 2 && q.attempt == leAt body 2 1) = none → roleTakes (s.board.groupRole g) 2 = true →
      Completes (.rdata g body) s (fun t => t = s)) ∧
    (∀ tag r, s.net.rreads.find? (fun q => q.tag == tag) = some r → r.attempt < 4 → Completes (.rreadTimeout tag) s (fun t =>
      t.net.rreads = s.net.rreads.map (fun q => if q.tag = r.tag then { r with attempt := r.attempt + 1 } else q) ∧
      t.board.msgs = (s.sendRRead { r with attempt := r.attempt + 1 }).board.msgs ∧ { t with board := s.board, net := s.net, freeCtr := s.freeCtr } = s)) ∧
    (∀ tag r n q raw, n < 256 → s.net.rreads.find? (fun q => q.tag == tag) = some r → 4 ≤ r.attempt → (s.core r.core).task = some (n, q, raw) → (s.core r.core).waiting = [] →
      (∀ o, (s.ctx n).ops = [o] → o.qindex = q → o.complete = false → (s.ctx n).owed = [] → s.ringRoom n = true →
        Completes (.rreadTimeout tag) s (fun t => t.net.rreads = s.net.rreads.filter (fun (x : RRead) => decide (x.tag ≠ r.tag)) ∧
          s.recorded t n { o.record with type := 2, cause := Cause.address, slot := 7, aux := 0, digestValid := false, digest := 0, gtcEnd := s.board.gtc }))) ∧
    (∀ tag, s.net.rreads.find? (fun q => q.tag == tag) = none → Completes (.rreadTimeout tag) s (fun t => t = s))

/-- R302, R303, R304, R306, R308, R312: an OFFER is answered by ACCEPT or by REFUSE with the first cause that applies; equal ACCEPTs bring the session UP, unless it differs
from the one that closed. REFUSE and CLOSE end it, REOFFER offers anew. A loopback starts and ends by its write, or by the far end's request. -/
def Obligations.SessionsFollowTheirOffers : Prop :=
  ∀ (s : State) (g : Nat), g < 12 →
    let np := Pg.nol g
    let x := s.group g
    let ses := s.board.session g
    let role := s.board.groupRole g
    let licensed := fun (i : Nat) => decide (s.store.variant = 0) && s.feature i
    let mine := fun (i : Nat) => i == 0 || i == 3 || i == 4 || (i == 1 && role == 2 && licensed 3) || (i == 2 && (role == 1 || (role == 2 && licensed 3)))
    let regs := [(np, 0x010), (np, 0x104), (np, 0x108), (np, 0x10C), (np, 0x110), (np, 0x114), (Pg.hbGlobal, 0x010)]
    let frame := fun (t : State) => { t with board := s.board, net := s.net, freeCtr := s.freeCtr } = s ∧ (∀ k, k ≠ g → t.group k = s.group k) ∧
      ∃ sent, s.board.Keeps t.board (regs ++ evs [np]) (pageCnts np ++ netCnts ++ logCnts) sent
    let refused := fun (cause : Nat) (t : State) => t.board.session g = Ses.refused ∧ t.board.fld np F.nolRefuseCauseCause = cause % 256 ∧
      t.board.evBit np F.nolEventRefused.lsb = true ∧ t.board.cnt np Cn.nolRefusals = (s.board.cnt np Cn.nolRefusals + 1) % 2 ^ 64 ∧ frame t
    (∀ o : Bytes,
      let lo := leAt o 0 1
      let hi := leAt o 1 1
      let level := min 3 hi
      let feats := s.localFeatures g &&& leAt o 4 4 &&& (if level = 1 then 0x10 else 0x1F)
      let causes := [(1, lo == 0 || decide (3 < lo) || hi == 0 || decide (3 < hi)), (2, decide (level < max 1 lo)), (3, role == 2 && level == 1 && !licensed 2),
        (4, !((role == 2 && leAt o 2 1 == 2) || (role == 1 && leAt o 2 1 == 3))),
        (5, role == 2 && !(leAt o 8 2 % 4096 == s.board.fld Pg.hbGlobal (F.hbGlobalGroupCfgPeerRack g) && leAt o 3 1 == s.board.fld Pg.hbGlobal (F.hbGlobalGroupCfgPeerGroup g)))]
      let cause := ((causes.find? (fun p => p.2)).map Prod.fst).getD 0
      let shown := fun (t : State) => t.board.fld np F.nolPeerLevelsLowest = lo ∧ t.board.fld np F.nolPeerLevelsHighest = hi ∧
        t.board.fld np F.nolPeerFeaturesFeatures = leAt o 4 4 ∧ t.board.fld np F.nolPeerIdRack = leAt o 8 2 % 4096
      (ses = Ses.refused ∨ ses = Ses.held → Completes (.offer g o) s (fun t => shown t ∧ t.board.session g = ses ∧ (t.group g).offer = some o ∧ t.sendsNone s ∧ frame t)) ∧
      (ses = Ses.offered → x.sentAccept = none → cause ≠ 0 → Completes (.offer g o) s (fun t => shown t ∧ refused cause t ∧
        t.board.msgs = (s.transmit g 1 0x03 (bodyOf 32 [(0, 1, cause)])).board.msgs ∧
        t.board.cnt np Cn.nolLevelErrors = (s.board.cnt np Cn.nolLevelErrors + if cause = 1 then 1 else 0) % 2 ^ 64)) ∧
      (ses = Ses.offered → x.sentAccept = none → cause = 0 → x.gotAccept = none → Completes (.offer g o) s (fun t => shown t ∧ t.board.session g = Ses.offered ∧
        (t.group g).sentAccept = some (level, feats) ∧ t.board.msgs = (s.transmit g 1 0x02 (bodyOf 32 [(0, 1, level), (4, 4, feats)])).board.msgs ∧ frame t)) ∧
      (ses ∉ [Ses.refused, Ses.held] → ¬(ses = Ses.offered ∧ x.sentAccept = none) → cause ≠ 0 → (s.upEngines g).isEmpty = false → Completes (.offer g o) s (fun t =>
        shown t ∧ refused cause t ∧ Out.msg g 1 0x01 0 (s.offerBody g) ∈ t.board.msgs ∧ Out.msg g 1 0x03 1 (bodyOf 32 [(0, 1, cause)]) ∈ t.board.msgs)) ∧
      (ses ∉ [Ses.refused, Ses.held] → ¬(ses = Ses.offered ∧ x.sentAccept = none) → cause = 0 → (s.upEngines g).isEmpty = false → Completes (.offer g o) s (fun t => shown t ∧ t.board.session g = Ses.offered ∧
        (t.group g).sentAccept = some (level, feats) ∧ Out.msg g 1 0x01 0 (s.offerBody g) ∈ t.board.msgs ∧
        Out.msg g 1 0x02 1 (bodyOf 32 [(0, 1, level), (4, 4, feats)]) ∈ t.board.msgs ∧ frame t))) ∧
    (∀ i < 32, (s.localFeatures g).testBit i = mine i) ∧ s.offerBody g = [1, 3, BitVec.ofNat 8 role, BitVec.ofNat 8 g] ++ toLE 4 (s.localFeatures g) ++ toLE 2 s.rack ++ List.replicate 22 0 ∧
    (∀ b : Bytes,
      let r := (leAt b 0 1, leAt b 4 4)
      (ses ≠ Ses.offered → Completes (.accept g b) s (fun t => t = s)) ∧
      (ses = Ses.offered → x.sentAccept = none → Completes (.accept g b) s (fun t => t = s.setGroup g { x with gotAccept := some r })) ∧
      (ses = Ses.offered → ∀ a, x.sentAccept = some a →
        (a ≠ r → Completes (.accept g b) s (fun t => refused 6 t ∧ t.board.msgs = (s.transmit g 1 0x03 (bodyOf 32 [(0, 1, 6)])).board.msgs)) ∧
        (a = r → (x.last = none ∨ x.last = some a) → r.1 < 256 → (s.inService = false ∨ role ≠ 2) → Completes (.accept g b) s (fun t => t.board.session g = Ses.up ∧
          (t.board.fld Pg.hbGlobal F.hbGlobalStatusGroupUp).testBit g = true ∧ t.board.fld np F.nolStatusLevel = r.1 ∧ t.board.fld np F.nolSessionFeaturesFeatures = r.2 ∧
          t.board.cnt np Cn.nolSessions = (s.board.cnt np Cn.nolSessions + 1) % 2 ^ 64 ∧ t.sendsNone s ∧ frame t)) ∧
        (a = r → ∀ c, x.last = some c → c ≠ a → Completes (.accept g b) s (fun t => t.board.session g = Ses.held ∧ t.board.evBit np F.nolEventSessionChanged.lsb = true))) ∧
      (ses = Ses.offered → Completes (.refuse g b) s (fun t => refused (leAt b 0 1) t ∧ t.sendsNone s)) ∧ (ses ≠ Ses.offered → Completes (.refuse g b) s (fun t => t = s))) ∧
    (ses ≠ Ses.none → Completes (.close g) s (fun t => t.board.session g = Ses.none ∧ t.board.fld np F.nolStatusLevel = 0 ∧ t.board.fld np F.nolSessionFeaturesFeatures = 0 ∧
      (ses = Ses.up → s.inService = true → t.board.evBit np F.nolEventGroupDown.lsb = true) ∧ (ses ≠ Ses.up ∨ s.inService = false → t.sendsNone s ∧ frame t))) ∧
    (ses = Ses.none → Completes (.close g) s (fun t => t = s)) ∧
    (∀ l, s.mayWrite l np →
      ((s.upEngines g).isEmpty = false → x.offer = none → Completes (.reoffer l g) s (fun t => t.board.session g = Ses.offered ∧ Out.msg g 1 0x01 0 (s.offerBody g) ∈ t.board.msgs ∧
        (t.group g).last = none)) ∧
      ((s.upEngines g).isEmpty = true → Completes (.reoffer l g) s (fun t => t = s.counted))) ∧
    (∀ (b : Bytes), let e := 4 * g + leAt b 2 1 % 4
      let saysAs := fun (t : State) (ans : Bytes) => t.board.msgs = (s.transmit g 1 0x05 (ans ++ List.replicate (32 - ans.length) 0)).board.msgs
      (leAt b 0 1 = 1 → s.inService = true → Completes (.farLoop g b) s (fun t => saysAs t [2, 1] ∧ (∀ i, t.board.engState i = s.board.engState i) ∧ frame t)) ∧
      (leAt b 0 1 = 1 → s.inService = false → s.sesFeature g 4 = false → Completes (.farLoop g b) s (fun t => saysAs t [2, 2] ∧ (∀ i, t.board.engState i = s.board.engState i) ∧ frame t)) ∧
      (leAt b 0 1 = 1 → s.inService = false → s.sesFeature g 4 = true → s.engUp e = true → Completes (.farLoop g b) s (fun t => t.board.engState e = Eng.loopback ∧ t.engine e = Engine.init)) ∧
      (leAt b 0 1 = 0 → s.board.engState e = Eng.loopback → Completes (.farLoop g b) s (fun t => saysAs t [3] ∧ t.board.engState e = Eng.training)) ∧
      (∀ i, leAt b 0 1 ∈ [2, 3] → (groupEngines g).find? (fun i => s.board.flag (Pg.hb i) F.hbControlFarLoop && s.engUp i) = some i →
        (leAt b 0 1 = 3 → Completes (.farLoop g b) s (fun t => t.board.engState i = Eng.loopback ∧ t.engine i = Engine.init)) ∧
        (leAt b 0 1 = 2 → Completes (.farLoop g b) s (fun t => t = s.onBoard (fun bd => bd.setFld (Pg.hb i) F.hbControlFarLoop 0))))) ∧
    (∀ l (e : Nat) (v : Word), e / 4 = g → s.mayWrite l (Pg.hb e) → v.toNat < 4 →
      (s.rwbState = true → v ≠ 0 → s.board.fld (Pg.hb e) F.hbControlLoopback = 0 → s.board.fld (Pg.hb e) F.hbControlFarLoop = 0 → s.engUp e = true →
        Completes (.loopback l e v) s (fun t => t.board.fld (Pg.hb e) F.hbControlLoopback = v.toNat ∧ t.board.engState e = Eng.loopback ∧ t.engine e = Engine.init)) ∧
      (s.rwbState = true → v = 0 → s.board.fld (Pg.hb e) F.hbControlLoopback ≠ 0 → s.board.fld (Pg.hb e) F.hbControlFarLoop = 0 → s.board.engState e = Eng.loopback →
        Completes (.loopback l e v) s (fun t => t.board.fld (Pg.hb e) F.hbControlLoopback = 0 ∧ t.board.engState e = Eng.training ∧ t.net = s.net ∧ t.sendsNone s)) ∧
      (s.rwbState = false → Completes (.loopback l e v) s (fun t => t.board.fld Pg.mod F.modAccessLastCause = 1 ∧ (∀ i, t.board.engState i = s.board.engState i) ∧
        t.board.rd (Pg.hb e) 0x014 = s.board.rd (Pg.hb e) 0x014 ∧ { t with board := s.board } = s)))

/-! ### Tick and roles (11_tick_and_roles) -/

/-- R333, R334, R337, R344: a SYNC anchors a follower's grid, slewed by at most 2 cycles, or moves it at a step boundary; delays are measured. ARRIVEs gather, RELEASE
frees the barrier at its instant, SNAPSHOT and GROUP_RESET wait for their tick. A lost crown is reported, and its deputy takes it. -/
def Obligations.GroupTimeAndBarriers : Prop :=
  ∀ s : State,
    let c := s.crown
    (∀ g body at_, s.hears g 0 →
      let cg := leAt body 0 8
      let tick := leAt body 8 8
      let per := leAt body 16 4
      let est := at_ - c.delay
      let mine := c.base + (tick - c.baseTick) * c.period
      let err := max est mine - min est mine
      let near := s.gridRuns = true ∧ c.baseTick ≤ tick ∧ err ≤ 2 ∧ c.moveTo = none
      let rate := fun (p : Nat) => (∀ c0 l0, c.lastSync = some (c0, l0) → c0 < cg → l0 < est → 2 * p * (cg - c0) ≤ 2 * per * (est - l0) + (cg - c0) ∧
        2 * per * (est - l0) < 2 * p * (cg - c0) + (cg - c0)) ∧ (c.lastSync = none → p = per)
      (s.isFollower = true → Completes (.sync g body at_) s (fun t =>
        t.crown.lastSync = some (cg, est) ∧ t.crown.crownPer = per ∧ t.crown.syncLost = 0 ∧ t.crown.lost = false ∧ t.crown.follows = true ∧ t.board.gtc = max s.board.gtc at_ ∧
        t.board.cnt Pg.tk Cn.tkSyncs = (s.board.cnt Pg.tk Cn.tkSyncs + 1) % 2 ^ 64 ∧ s.onlyCrown t ∧ t.sendsNone s ∧
        (near → t.crown.baseTick = tick ∧ t.crown.base = est ∧ rate t.crown.period ∧ t.crown.moveTo = none ∧ t.board.flag Pg.tk F.tkStatusGroupLocked = true ∧
          t.board.cnt Pg.tk Cn.tkSlewCycles = (s.board.cnt Pg.tk Cn.tkSlewCycles + err) % 2 ^ 64) ∧
        (¬ near → (∃ p, t.crown.moveTo = some (tick, est, p) ∧ rate p) ∧ t.crown.base = c.base ∧ t.crown.baseTick = c.baseTick ∧ t.crown.period = c.period ∧
          t.board.flag Pg.tk F.tkStatusGroupLocked = false ∧ (c.follows = true → t.board.evBit Pg.tk F.tkEventSlewLimit.lsb = true)))) ∧
      (s.isFollower = false → Completes (.sync g body at_) s (fun t => t = s.syncTk)) ∧
      Completes (.delayReq g body) s (fun t => t.saysAs (s.sendMsg g 0 0x03 (toLE 8 (leAt body 0 8) ++ toLE 8 s.board.gtc ++ toLE 8 s.board.gtc ++ List.replicate 8 0)) ∧ t.crown = c ∧ s.onlyCrown t) ∧
      (c.delaySent = some (leAt body 0 8) → Completes (.delayResp g body) s (fun t => t = { s with crown := { c with delay := ((s.board.gtc - leAt body 0 8) - (leAt body 16 8 - leAt body 8 8)) / 2, delaySent := none } })) ∧
      (c.delaySent ≠ some (leAt body 0 8) → Completes (.delayResp g body) s (fun t => t = s))) ∧
    (∀ g body, s.hears g 0 → s.role ≠ 0 →
      let id := leAt body 0 4
      let kids := c.barKids.filter (fun k => !(k.1 == g)) ++ [(g, leAt body 4 4)]
      let count := (kids.map Prod.snd).sum + 1
      ((c.barOwn = false ∨ kids.length < s.childRanks.length) → Completes (.arrive g body) s (fun t => t = { s with crown := { c with barId := some id, barKids := kids } })) ∧
      (c.barOwn = true → s.childRanks.length ≤ kids.length → s.holdsTop = true → Completes (.arrive g body) s (fun t =>
        t.crown = { c with barId := some id, barOwn := false, barKids := [], releaseAt := some (s.groupTime + s.oneWay) } ∧ s.onlyCrown t ∧
        t.saysAs (s.toChildren 0 0x05 (bodyOf 32 [(0, 4, id), (8, 8, s.groupTime + s.oneWay)])))) ∧
      (c.barOwn = true → s.childRanks.length ≤ kids.length → s.holdsTop = false → Completes (.arrive g body) s (fun t =>
        t.crown = { c with barId := some id, barOwn := false, barKids := [] } ∧ s.onlyCrown t ∧ t.saysAs (s.toParent 0 0x04 (bodyOf 32 [(0, 4, id), (4, 4, count)])))) ∧
      Completes (.release g body) s (fun t => t.crown = { c with releaseAt := some (s.localTime (leAt body 8 8)), barId := some id } ∧ s.onlyCrown t ∧
        t.saysAs (s.toChildrenBut (some g) 0 0x05 body))) ∧
    (∀ x, c.releaseAt = some x → Completes .jobBarrierRelease s (fun t => t = { s with crown := { c with releaseAt := none, barId := none }, board := { s.board with gtc := max s.board.gtc x } })) ∧
    (c.releaseAt = none → Completes .jobBarrierRelease s (fun t => t = s)) ∧
    (∀ body, s.quiet = false → Completes (.snapshot body) s (fun t => t.crown = { c with snaps := c.snaps ++ [leAt body 8 8] } ∧ s.onlyCrown t ∧ t.saysAs (s.toChildren 0 0x07 body)) ∧
      Completes (.groupReset body) s (fun t => t.crown = { c with resets := c.resets ++ [leAt body 8 8] } ∧ s.onlyCrown t ∧ t.saysAs (s.toChildren 0 0x08 body))) ∧
    (∀ body, s.quiet = true → Completes (.snapshot body) s (fun t => t = s) ∧ Completes (.groupReset body) s (fun t => t = s)) ∧
    (s.isFollower = true → c.lost = false → s.lossTicks ≤ c.syncLost → Completes .crownLost s (fun t => t.crown.lost = decide (s.deputyRack ≠ s.rack) ∧ t.crown.syncLost = 0 ∧
      t.board.cnt Pg.role Cn.roleCrownLosses = (s.board.cnt Pg.role Cn.roleCrownLosses + 1) % 2 ^ 64 ∧ t.board.evBit Pg.role F.roleEventCrownLost.lsb = true ∧ s.onlyCrown t ∧
      (s.deputyRack ≠ s.rack → t.crown = { c with lost := true, syncLost := 0 } ∧ t.sendsNone s) ∧
      (s.deputyRack = s.rack → t.role = (if s.groupSize < s.jobSize ∧ s.rank < s.groupSize then 3 else 2) ∧ t.board.fld Pg.role F.roleCrownCurrent = s.rack ∧ t.crown.follows = false ∧
        (∀ p < 16, ∀ n, s.runningCtx p = some n → ∃ a ∈ t.crown.aborts, a.step = s.stepOf n ∧ a.attempt = (s.attemptOf (s.stepOf n) + 1) % 256) ∧
        (∀ a ∈ t.crown.aborts, a ∈ c.aborts ∨ a.reason = 4)))) ∧
    ((s.isFollower = false ∨ c.lost = true ∨ c.syncLost < s.lossTicks) → Completes .crownLost s (fun t => t = s)) ∧
    (s.isFollower = true → c.lost = true → s.lossTicks ≤ c.syncLost → Completes .deputyLost s (fun t => t = { s with crown := { c with deputyLost := true } })) ∧
    ((s.isFollower = false ∨ c.lost = false ∨ c.syncLost < s.lossTicks) → Completes .deputyLost s (fun t => t = s))

/-- R159, R163, R272, R338, R340, R341: ABORT and REMAP travel down and wait; at its target an abort ends the step's work and rewinds every context; a REMAP gives ranks and cores, or
excludes. Notices and reports lead the crown to abort or exclude. The report forms of DEGRADED and class B are the model's (log 16, 17). -/
def Obligations.AbortsRemapsAndNotices : Prop :=
  ∀ s : State,
    let c := s.crown
    let same := fun (t : State) => t.crown = c ∧ s.onlyCrown t
    (∀ g, 0 < c.period → c.baseTick ≤ c.tick → c.base ≤ g → g ≤ s.gridPoint (s.gridAt g) ∧ (s.gridAt g = c.tick + 1 ∨ s.gridPoint (s.gridAt g - 1) < g) ∧ c.tick < s.gridAt g) ∧
    (∀ g body, s.hears g 0 →
      let a : Abort := ⟨leAt body 0 4, leAt body 4 1, leAt body 5 1, leAt body 8 8⟩
      Completes (.abort g body) s (fun t => t.saysAs (s.toChildrenBut (some g) 0 0x06 body) ∧ s.onlyCrown t ∧
        t.crown = { c with aborts := if c.aborts.any (fun x => x.step == a.step && x.attempt == a.attempt) then c.aborts else c.aborts ++ [a] })) ∧
    (∀ a, s.gridRuns = true → c.aborts = [a] → a.target ≤ c.tick + 1 → a.step < 2 ^ 32 → a.attempt < 256 → a.reason < 8 → Completes .abortTakeEffect s (fun t =>
      t.crown.aborts = [] ∧ t.crown.remaps = [] ∧ t.crown.resumeAt = some (a.target + 1) ∧ t.board.fld Pg.role F.roleLastAbortStepStep = a.step ∧
      t.board.fld Pg.role F.roleLastAbortAttempt = a.attempt ∧ t.board.fld Pg.role F.roleLastAbortReason = a.reason ∧ t.board.evBit Pg.role F.roleEventAbort.lsb = true ∧
      t.board.cnt Pg.role Cn.roleAborts = (s.board.cnt Pg.role Cn.roleAborts + 1) % 2 ^ 64 ∧
      (∀ n < 256, s.cstate n ≠ Cs.free → (t.ctx n).paused = true ∧ t.live n = [] ∧ ((s.ctx n).stepped = true → t.ci n = (s.cf n F.opqCtxLastStepQindex + 1) % 65536)) ∧
      (∀ n < 256, s.cstate n = Cs.free → t.ctx n = s.ctx n) ∧
      (∀ p < 16, (s.runningCtx p).isSome = true → ∀ k ∈ s.partCores p, (t.core k).task = none ∧ (t.core k).strands = [] ∧ t.board.flag (Pg.core k) F.coreStatusBusy = false ∧
        (3 ≤ a.reason → t.board.fld (Pg.spx k) F.spxStatusHaccMode = 3)) ∧
      (∀ n, (s.tree n).step = a.step → (t.tree n).isOpen = false) ∧ (∀ n, (s.tree n).step ≠ a.step → t.tree n = s.tree n) ∧
      (∀ p < 16, (s.feed p).cur ≠ none → (t.feed p).batts = [] ∧ (t.feed p).mark = none) ∧ t.saysAs s ∧
      (∀ x, (∀ n < 256, ∀ o ∈ s.live n, ∀ r ∈ o.outputs, x < r.lo ∨ r.hi ≤ x) → memByte t.mem x = memByte s.mem x))) ∧
    ((s.gridRuns = false ∨ ∀ a ∈ c.aborts, c.tick + 1 < a.target) → Completes .abortTakeEffect s (fun t => t = s)) ∧
    (∀ g body,
      let rack := leAt body 4 2 % 4096
      let part := leAt body 6 1
      let others := c.members.filter (fun m => !(m.1 == leAt body 20 2) && !(m.2 == rack)) ++ (if part = 0xFF then [] else [(leAt body 20 2, rack)])
      (rack = s.rack → Completes (.remap g body) s (fun t => t = { s with crown := { c with remaps := c.remaps ++ [body] } })) ∧
      (rack ≠ s.rack → Completes (.remap g body) s (fun t => t.crown = { c with members := others } ∧ s.onlyCrown t ∧
        (∀ k, s.peerGroup rack = some k → t.saysAs (s.sendMsg k 1 0x10 body)) ∧
        (s.peerGroup rack = none → t.saysAs (({ s with crown := { c with members := others } } : State).toChildrenBut (some g) 1 0x10 body)))) ∧
      (s.gridRuns = true → c.remaps = [body] → s.remapDue body = true → Completes .remapTakeEffect s (fun t => t.crown.remaps = [] ∧
        t.board.cnt Pg.role Cn.roleRemaps = (s.board.cnt Pg.role Cn.roleRemaps + 1) % 2 ^ 64 ∧
        (part = 0xFF → t.role = 0 ∧ t.board.flag Pg.bup F.bupStatusExcluded = true ∧ t.feeds = s.feeds) ∧
        (part ≠ 0xFF → t.rank = leAt body 20 2 ∧ t.jobSize = leAt body 24 2 + 1 ∧ t.board.flag Pg.bup F.bupStatusExcluded = false ∧
          t.role = (if s.role = 0 ∧ s.inService = true then 1 else s.role)) ∧
        (part < 16 → t.board.partMask part = leAt body 8 12 ∧ (∀ q < 16, q ≠ part → t.board.partMask q = s.board.partMask q) ∧ t.board.evBit Pg.opq0 F.opq0EventPartRemap.lsb = true) ∧
        { t with board := s.board, crown := s.crown, feeds := s.feeds } = s ∧ t.sendsNone s)) ∧
      ((s.gridRuns = false ∨ ∀ b ∈ c.remaps, s.remapDue b = false) → Completes .remapTakeEffect s (fun t => t = s)) ∧
      (∀ l, s.isCrown = true → s.answers = true → s.board.owner = some (linkIdx l) →
        (rack = s.rack → Completes (.hostExclusion l body) s (fun t => t = { s with crown := { c with remaps := c.remaps ++ [body] } })) ∧
        (rack ≠ s.rack → Completes (.hostExclusion l body) s (fun t => same t ∧ t.saysAs (s.issueRemap body)))) ∧
      (∀ l, (s.isCrown = false ∨ s.answers = false ∨ s.board.owner ≠ some (linkIdx l)) → Completes (.hostExclusion l body) s (fun t => t = s))) ∧
    (∀ g body,
      let rack := leAt body 0 2 % 4096
      let mask := leAt body 4 12
      let step := leAt body 4 4
      (s.isCrown = false → Completes (.slowReport g body) s (fun t => same t ∧ t.saysAs (s.toCrown 1 0x11 body))) ∧
      (s.isCrown = true → (leAt body 2 1 = 0 ∨ s.autoExclude = false) → Completes (.slowReport g body) s (fun t => t = s)) ∧
      (s.isCrown = true → leAt body 2 1 ≠ 0 → s.autoExclude = true → rack = s.rack →
        let names := (List.range 16).filterMap (fun p => if s.board.partMask p &&& mask = 0 then none
          else some (remapBody (((s.runningCtx p).map s.stepOf).getD 0) s.rack p (s.board.partMask p ^^^ (s.board.partMask p &&& mask)) s.rank (s.jobSize - 1)))
        Completes (.slowReport g body) s (fun t => t = { s with crown := { c with remaps := c.remaps ++ names } })) ∧
      (s.isCrown = true → leAt body 2 1 ≠ 0 → s.autoExclude = true → rack ≠ s.rack → Completes (.slowReport g body) s (fun t => same t ∧
        ∃ st p m rk, p < 16 ∧ m &&& mask = 0 ∧ t.saysAs (s.issueRemap (remapBody st rack p m rk (s.jobSize - 1))))) ∧
      (s.isCrown = true → exec (.degradedReport g body) s = exec (.slowReport g (slice body 0 2 ++ toLE 1 1 ++ slice body 3 29)) s) ∧
      let passed := fun (t : State) => same t ∧ ∃ sub, t.saysAs (({ s with freeCtr := s.freeCtr + 1 } : State).toCrown 1 sub body)
      (s.isCrown = false → Completes (.degradedReport g body) s passed) ∧
      (s.holdsTop = false → s.gridRuns = true → Completes (.classBFaultReport g body) s passed) ∧
      (s.holdsTop = true → s.gridRuns = true → leAt body 3 1 = s.attemptOf step → Completes (.classBFaultReport g body) s (fun t => s.decided t step 3 ∧ s.onlyCrown t)) ∧
      ((s.gridRuns = false ∨ (s.holdsTop = true ∧ leAt body 3 1 ≠ s.attemptOf step)) → Completes (.classBFaultReport g body) s (fun t => t = s)) ∧
      (∀ sub i, (sub, i) ∈ [(0x20, Instr.battFailureNotice g body), (0x21, .missingContributorNotice g body)] → s.board.flag Pg.role F.roleStatusHandover = false →
        (s.holdsTop = false → s.isCrown = true → Completes i s (fun t => same t ∧ t.saysAs (s.toParent 1 sub body) ∧
          t.board.cnt Pg.role Cn.roleNotices = (s.board.cnt Pg.role Cn.roleNotices + 1) % 2 ^ 64)) ∧
        (s.isCrown = false → s.holdsTop = false → Completes i s (fun t => same t ∧ t.saysAs (s.toCrown 1 sub body) ∧ t.board.cnt Pg.role Cn.roleNotices = s.board.cnt Pg.role Cn.roleNotices)) ∧
        (s.holdsTop = true → Completes i s (fun t => t.board.cnt Pg.role Cn.roleNotices = (s.board.cnt Pg.role Cn.roleNotices + 1) % 2 ^ 64 ∧ s.onlyCrown t ∧
          (sub = 0x20 → s.gridRuns = true → s.board.flag Pg.role F.roleCrownCfgBattAbort = true → s.decided t step 2) ∧
          (sub = 0x20 → (s.gridRuns = false ∨ s.board.flag Pg.role F.roleCrownCfgBattAbort = false) → t.crown = c ∧ t.saysAs s) ∧
          (sub = 0x21 → s.gridRuns = true → leAt body 3 1 = s.attemptOf step → s.autoExclude = false → s.decided t step 1) ∧
          (sub = 0x21 → (s.gridRuns = false ∨ leAt body 3 1 ≠ s.attemptOf step) → t.crown = c ∧ t.saysAs s) ∧
          (sub = 0x21 → s.gridRuns = true → leAt body 3 1 = s.attemptOf step → s.autoExclude = true → rack = s.rack → (∀ m ∈ c.members, m.2 ≠ rack) →
            let out := namedRanks s.rank (leAt body 12 2) s.jobSize
            let keep := (List.range s.jobSize).filter (fun r => !out.contains r)
            keep.length ≠ s.jobSize → keep.length ≠ 0 → s.rank < s.jobSize →
              (s.rank ∈ out → remapBody step s.rack 0xFF 0 0 (keep.length - 1) ∈ t.crown.remaps) ∧
              (s.rank ∉ out → remapBody step s.rack 0 (s.board.partMask 0) (keep.filter (fun r => decide (r < s.rank))).length (keep.length - 1) ∈ t.crown.remaps))))))

/-- R331, R342, R343: a SWAP_REQ is accepted or refused with its cause; an accepted handover is committed by the crown to a tick at least one one-way bound ahead, at which the candidate
holds the crown and announces it. A ROLE_CONFLICT is recorded, and a request waits a tick after it. -/
def Obligations.HandoverMovesTheCrown : Prop :=
  ∀ s : State,
    let c := s.crown
    let rp := Pg.role
    let state := fun (t : State) => t.board.fld rp F.roleSwapStateState
    let between := fun (t : State) => t.board.flag rp F.roleStatusHandover
    let due := s.gridAt (s.board.gtc + s.oneWay)
    let commits := fun (rack : Nat) (first : State) (t : State) => t.crown = { c with swapRack := rack, candidate := false, swapAt := some due } ∧ state t = 3 ∧ between t = true ∧
      t.saysAs (first.toRack rack 1 0x15 (bodyOf 32 [(8, 8, due)])) ∧ s.onlyCrown t
    let waits := fun (rack : Nat) (t : State) => t.crown = { c with swapRack := rack, candidate := true, swapAt := none } ∧ state t = 2 ∧ between t = true ∧ s.onlyCrown t
    (∀ g body,
      let rack := leAt body 0 2 % 4096
      let sought := leAt body 2 1
      let isEnd := (sought = 2 ∧ s.isCrown = true) ∨ (sought = 1 ∧ s.isCrown = false ∧ s.board.fld rp F.roleCrownCurrent = rack)
      let refuses := fun (cause : Nat) (t : State) => t.crown = c ∧ s.onlyCrown t ∧ t.saysAs (s.toRack rack 1 0x14 (bodyOf 32 [(0, 1, cause)]))
      let busy := between s = true ∨ (s.swapState = 1 ∧ (c.swapRack ≠ rack ∨ s.rack < rack))
      (s.inService = false → Completes (.swapReq g body) s (refuses 3)) ∧
      (s.inService = true → (s.role = 0 ∨ ¬ isEnd) → Completes (.swapReq g body) s (refuses 2)) ∧
      (s.inService = true → s.role ≠ 0 → isEnd → busy → Completes (.swapReq g body) s (refuses 1)) ∧
      (s.inService = true → s.role ≠ 0 → isEnd → ¬ busy →
        let accepted := s.toRack rack 1 0x13 (bodyOf 32 [(0, 2, s.rack)])
        (s.isCrown = true → Completes (.swapReq g body) s (commits rack accepted)) ∧
        (s.isCrown = false → Completes (.swapReq g body) s (fun t => waits rack t ∧ t.saysAs accepted))) ∧
      ((s.swapState ≠ 1 ∨ c.swapRack ≠ rack) → Completes (.swapAccept g body) s (fun t => t = s)) ∧
      (s.swapState = 1 → c.swapRack = rack → s.isCrown = true → Completes (.swapAccept g body) s (commits rack s)) ∧
      (s.swapState = 1 → c.swapRack = rack → s.isCrown = false → Completes (.swapAccept g body) s (fun t => waits rack t ∧ t.saysAs s)) ∧
      Completes (.swapRefuse g body) s (fun t => t.board.fld rp F.roleSwapStateCause = leAt body 0 1 ∧ (s.swapState = 1 → state t = 4 ∧ between t = false) ∧ t.saysAs s ∧ s.onlyCrown t ∧
        (leAt body 0 1 = 1 → t.crown = { c with conflictAt := some c.tick } ∧ t.board.evBit rp F.roleEventRoleConflict.lsb = true ∧
          t.board.cnt rp Cn.roleConflicts = (s.board.cnt rp Cn.roleConflicts + 1) % 2 ^ 64) ∧ (leAt body 0 1 ≠ 1 → t.crown = c)) ∧
      (c.candidate = true → s.swapState = 2 → Completes (.swapCommit g body) s (fun t => t.crown = { c with swapAt := some (leAt body 8 8) } ∧ state t = 3 ∧ between t = true ∧ t.saysAs s ∧ s.onlyCrown t)) ∧
      ((c.candidate = false ∨ s.swapState ≠ 2) → Completes (.swapCommit g body) s (fun t => t = s)) ∧
      Completes (.crownAnnounce g body) s (fun t => t.board.fld rp F.roleCrownCurrent = rack ∧ t.crown = { c with lost := false, deputyLost := false, syncLost := 0 } ∧ s.onlyCrown t ∧
        (s.isCrown = false → t.role = s.role) ∧ (s.isCrown = true → rack = s.rack → t.role = s.role) ∧
        (s.role = 2 → s.jobSize ≤ s.groupSize → rack ≠ s.rack → t.role = 1))) ∧
    (∀ a, s.gridRuns = true → c.swapAt = some a → a ≤ c.tick + 1 → Completes .handoverTakeEffect s (fun t => t.crown.swapAt = none ∧ state t = 0 ∧ between t = false ∧
      t.board.cnt rp Cn.roleHandovers = (s.board.cnt rp Cn.roleHandovers + 1) % 2 ^ 64 ∧ s.onlyCrown t ∧
      (c.candidate = true → t.role = (if s.groupSize < s.jobSize ∧ s.rank < s.groupSize then 3 else 2) ∧ t.board.fld rp F.roleCrownCurrent = s.rack ∧ t.crown.follows = false) ∧
      (c.candidate = false → t.role = 1 ∧ t.board.fld rp F.roleCrownCurrent = c.swapRack % 4096 ∧ t.saysAs s))) ∧
    ((s.gridRuns = false ∨ c.swapAt = none ∨ ∃ a, c.swapAt = some a ∧ c.tick + 1 < a) → Completes .handoverTakeEffect s (fun t => t = s)) ∧
    (∀ l (v : Word), s.mayWrite l rp → v.getLsbD 0 = true → reservedBits .role 0x114 v.toNat = 0 →
      let target := v.toNat / 2 ^ 16 % 4096
      let early := ∃ t0, c.conflictAt = some t0 ∧ c.tick < t0 + 1
      (s.role ≠ 0 → between s = false → ¬ early → Completes (.swapReqCmd l v) s (fun t => t.crown = { c with swapRack := target, candidate := false, swapAt := none } ∧ state t = 1 ∧
        t.saysAs (s.toRack target 1 0x12 (bodyOf 32 [(0, 2, s.rack), (2, 1, if s.isCrown then 1 else 2), (4, 8, s.groupTime)])) ∧
        { t with board := s.board, crown := s.crown, net := s.net, freeCtr := s.freeCtr } = s)) ∧
      ((s.role = 0 ∨ between s = true ∨ early) → Completes (.swapReqCmd l v) s (fun t => t = s.counted)))

/-- R86, R160, R192, R324 to R326, R373: the close point samples; a late task holds the boundary, which counts once and starts, switches and copies nothing; any other boundary
latches slacks, copies the counters, moves the operating point by one step within the cap, holds the partitions whose inputs are absent and schedules the rest. -/
def Obligations.TicksHoldOrGoOn : Prop :=
  ∀ (s : State) (m : Meas),
    let c := s.crown
    let n := c.tick + 1
    let g := c.base + (n - c.baseTick) * c.period
    let runs := s.gridRuns = true ∧ s.alive = true
    let plain := runs ∧ c.closed = true ∧ c.moveTo = none ∧ c.aborts = [] ∧ c.swapAt = none ∧ c.remaps = [] ∧ c.resets = [] ∧ c.deputyLost = false ∧ s.bup.heldAbort = false ∧
      s.bup.resetPending = false ∧ s.bup.toService = false ∧ s.bup.regrid = false
    let late := (List.range 96).filter (fun k => (s.core k).task.isSome && !(s.core k).sampled)
    let isHeld := fun (t : State) => t.board.flag Pg.tk F.tkStatusHeld
    let parts := (List.range 16).filter (fun p => !(s.partCores p).isEmpty)
    let holding := fun (k : Nat) => (parts.filter (fun p => (s.part p).causes.contains k)).length
    (¬ runs → Completes .closePoint s (fun t => t = s) ∧ Completes (.tickBoundary m) s (fun t => t = s)) ∧
    (runs → Completes .closePoint s (fun t => t.crown = { c with closed := true } ∧ t.board = { s.board with gtc := max s.board.gtc (g - 192) } ∧
      (∀ k < 96, t.core k = { s.core k with sampled := (s.core k).task.isNone || (s.core k).doneAt.isSome }) ∧
      (∀ k < 256, s.cstate k ≠ Cs.free → t.ctx k = { s.ctx k with closePi := s.pi k }) ∧ (∀ k < 256, s.cstate k = Cs.free → t.ctx k = s.ctx k) ∧
      (∀ p < 16, t.feed p = { s.feed p with sampled := (s.feed p).sampled || (s.feed p).done }) ∧
      (∀ p < 16, { t.part p with causes := (s.part p).causes } = s.part p ∧ (s.runningCtx p = none → (t.part p).causes = []) ∧
        ((s.runningCtx p).isSome = true → (6 ∈ (t.part p).causes ↔ s.backlogTrees p ≠ []) ∧ 7 ∉ (t.part p).causes ∧
          (0 ∈ (t.part p).causes ↔ ∃ k ∈ s.partCores p, ∃ r ∈ (s.core k).reads, r.forNext = true ∧ (r.tier = 1 ∨ ∃ f ∈ s.tier.fly, f.refetch = true ∧ f.page = pageOf r.addr)))) ∧
      { t with board := s.board, cores := s.cores, ctxs := s.ctxs, feeds := s.feeds, parts := s.parts, crown := s.crown } = s)) ∧
    (runs → Completes (.tickBoundary m) s (fun _ => True)) ∧
    (plain → late ≠ [] → Completes (.tickBoundary m) s (fun t => t.crown.tick = n ∧ t.board.gtc = max s.board.gtc g ∧ isHeld t = true ∧
      t.board.cnt Pg.tk Cn.tkTicks = (s.board.cnt Pg.tk Cn.tkTicks + 1) % 2 ^ 64 ∧ t.board.snap = s.board.snap ∧ t.board.image = s.board.image ∧
      { t with board := s.board, crown := s.crown, net := s.net, cores := s.cores, fab := s.fab, freeCtr := s.freeCtr } = s ∧
      (isHeld s = true → t.cores = s.cores ∧ t.fab = s.fab ∧ (∀ x ∈ [Cn.tkHeldBoundaries, Cn.tkOverruns], t.board.cnt Pg.tk x = s.board.cnt Pg.tk x) ∧
        (∀ k < 8, t.board.cnt Pg.mem (Cn.memStall k) = s.board.cnt Pg.mem (Cn.memStall k))) ∧
      (isHeld s = false → t.board.evBit Pg.tk F.tkEventOverrun.lsb = true ∧ t.board.evBit Pg.mem F.memEventStall.lsb = true ∧
        t.board.cnt Pg.tk Cn.tkHeldBoundaries = (s.board.cnt Pg.tk Cn.tkHeldBoundaries + 1) % 2 ^ 64 ∧
        t.board.cnt Pg.tk Cn.tkOverruns = (s.board.cnt Pg.tk Cn.tkOverruns + late.length) % 2 ^ 64 ∧
        t.board.cnt Pg.mem (Cn.memStall 7) = (s.board.cnt Pg.mem (Cn.memStall 7) + 1) % 2 ^ 64 ∧
        (∀ k < 7, k ≠ 4 → t.board.cnt Pg.mem (Cn.memStall k) = s.board.cnt Pg.mem (Cn.memStall k)) ∧ t.board.cnt Pg.mem Cn.memStallLastGtc = g % 2 ^ 64 ∧
        t.board.fld Pg.mem F.memStallLastCause = 7 ∧
        (∀ p < 16, (∃ k ∈ late, k ∈ s.partCores p) → (∀ q < p, ∀ k ∈ late, k ∉ s.partCores q) → t.board.fld Pg.mem F.memStallLastPartition = p) ∧
        (∀ k ∈ late, t.board.evBit (Pg.core k) F.coreEventOverrun.lsb = true ∧ (t.core k).task = (s.core k).task ∧ (t.core k).doneAt = (s.core k).doneAt ∧ (t.core k).overran = some g) ∧
        (∀ k < 96, k ∉ late → t.core k = s.core k)))) ∧
    (plain → late = [] → Completes (.tickBoundary m) s (fun t => t.crown.tick = n ∧ t.board.gtc = max s.board.gtc g ∧ isHeld t = false ∧
      t.board.cnt Pg.tk Cn.tkTicks = (s.board.cnt Pg.tk Cn.tkTicks + 1) % 2 ^ 64 ∧
      ((∀ x ∈ c.snaps, n < x) → t.board.snap = t.board.live ∧ t.board.image = s.board.image) ∧
      ((∃ x ∈ c.snaps, x ≤ n) → t.board.image = t.board.snap ∧ t.board.evBit Pg.tel F.telEventSnapshotDone.lsb = true ∧
        t.board.cnt Pg.tel Cn.telSnapshots = (s.board.cnt Pg.tel Cn.telSnapshots + 1) % 2 ^ 64) ∧
      (∀ x ∈ t.crown.snaps, n < x ∧ x ∈ c.snaps) ∧
      (∀ k < 96, ∀ task d, (s.core k).task = some task → (s.core k).doneAt = some d →
        let slack : Int := (g : Int) - d
        let slow := (s.core k).overran.isSome = true ∨ slack < (s.board.fld Pg.tk F.tkSlowCfgThreshold : Int)
        ((s.core k).overran = none → t.board.cnt (Pg.core k) Cn.coreSlackLast = codeOf 64 slack) ∧
        ((s.core k).overran ≠ none → t.board.cnt (Pg.core k) Cn.coreSlackLast = s.board.cnt (Pg.core k) Cn.coreSlackLast) ∧
        (slow → (t.core k).slowRun = (s.core k).slowRun + 1 ∧ (t.core k).fastRun = 0) ∧ (¬ slow → (t.core k).slowRun = 0 ∧ (t.core k).fastRun = (s.core k).fastRun + 1)) ∧
      (let d0 := s.board.fld Pg.pwr F.pwrGlobalOperatingDuty
       let c0 := s.board.fld Pg.clk F.clkMclkStateCurrent
       let d1 := t.board.fld Pg.pwr F.pwrGlobalOperatingDuty
       let c1 := t.board.fld Pg.clk F.clkMclkStateCurrent
       let top := s.board.fld Pg.clk F.clkProfileMult
       let cap := if s.board.flag Pg.pwr F.pwrGlobalStatusInputLow = true then
           (lowestCap ({ s with pwr := { s.pwr with capUnder := 600 * m.vin / 1000 } } : State).capSources 0 (0, 0)).1
         else s.board.fld Pg.pwr F.pwrGlobalCapEffectiveW10
       let fits := powerFits m cap d0 c0
       1 ≤ d1 ∧ d1 ≤ 16 ∧ c1 ≤ c0 + 1 ∧ c0 ≤ c1 + 1 ∧ (c0 < c1 → fits d1 c1 = true ∧ c1 ≤ max 10 top) ∧ (∀ d, d1 < d → d ≤ 16 → fits d c1 = false) ∧
         (c1 < c0 → ∀ d x, 1 ≤ d → d ≤ 16 → c0 ≤ x → x ≤ top → 10 ≤ x → fits d x = true → ∃ d' x', x' < c0 ∧ 10 ≤ x' ∧ fits d' x' = true ∧ d * x < d' * x') ∧
         (t.board.flag Pg.pwr F.pwrGlobalStatusCapUnmet = true ↔ fits 1 10 = false) ∧
         (fits 1 10 = false → t.board.evBit Pg.pwr F.pwrGlobalEventCapUnmet.lsb = true) ∧
         t.board.cnt Pg.pwr Cn.pwrGlobalCapUnmetTicks = (s.board.cnt Pg.pwr Cn.pwrGlobalCapUnmetTicks + if fits 1 10 = true then 0 else 1) % 2 ^ 64 ∧
         t.board.cnt Pg.clk Cn.clkFreqSteps = (s.board.cnt Pg.clk Cn.clkFreqSteps + if c1 = c0 then 0 else 1) % 2 ^ 64) ∧
      (∀ k < 256, s.cstate k ∈ [Cs.ready, Cs.running, Cs.stalled] → (s.ctx k).disablePending = false → (t.ctx k).actPi = (s.ctx k).closePi) ∧
      (∀ p < 16, ∀ k, t.runningCtx p = some k → s.runningCtx p ≠ some k → t.cf k F.opqCtxCfgShare ≠ 0 ∧ t.partOf k = p) ∧
      (t.inService = true → (∀ p ∈ parts, (t.board.flag Pg.opq0 (F.opq0PartCtrlStalled p) = true ↔ (s.part p).causes ≠ [])) ∧
        (∀ k < 7, k ≠ 4 → t.board.cnt Pg.mem (Cn.memStall k) = (s.board.cnt Pg.mem (Cn.memStall k) + holding k) % 2 ^ 64) ∧
        (∀ p ∈ parts, (s.part p).causes ≠ [] → (t.runningCtx p = s.runningCtx p ∨ t.runningCtx p = none) ∧
          ∀ k ∈ s.partCores p, (∀ q ∈ parts, q ≠ p → k ∉ s.partCores q) → (t.core k).task = none ∨ (t.core k).task = (s.core k).task))))

/-! ### Checksums and parameters (02_numerics, 04_sniash, 10_hatband) -/

/-- R50, R290: the CRC-64 and the CRC-32C are those of the parameters that the rules name, with their values over "123456789". A flit that fails its check is discarded: what the
engine does then depends on no bit of it. -/
def Obligations.ChecksumsFollowTheirParameters : Prop :=
  (∀ bs : Bytes, crc64 bs = crcOf 64 0x42F0E1EBA9EA3693 bs ∧ crc32c bs = crcOf 32 0x1EDC6F41 bs) ∧
    (let nine : Bytes := [0x31, 0x32, 0x33, 0x34, 0x35, 0x36, 0x37, 0x38, 0x39]
     crc64 nine = 0x995DC9BBDF1939FA ∧ crc32c nine = 0xE3069283) ∧
    ∀ (s : State) (e : Nat) (f h : Bytes), e < 48 → s.engUp e = true → f.length = 256 → h.length = 256 →
      crcOf 32 0x1EDC6F41 (f.take 12 ++ f.drop 16) ≠ leAt f 12 4 → crcOf 32 0x1EDC6F41 (h.take 12 ++ h.drop 16) ≠ leAt h 12 4 →
      exec (.flitReceive e f) s = exec (.flitReceive e h) s ∧
        Completes (.flitReceive e f) s (fun t => t.board.cnt (Pg.hb e) Cn.hbRxCrcFails = (s.board.cnt (Pg.hb e) Cn.hbRxCrcFails + 1) % 2 ^ 64 ∧
          t.net.groups = s.net.groups ∧ (t.engine e).rxSeq = (s.engine e).rxSeq ∧ (t.engine e).partials = (s.engine e).partials ∧ t.mem = s.mem)

/-- R131: with at most five tensors slot T5 holds PARAM0 to PARAM3, bytes 112 to 127 of the descriptor; with six every parameter reads as 0. NTENS is bits 26 to 24 of its first word
(R125). -/
def Obligations.ParametersSitInSlotFive : Prop :=
  ∀ (bs : Bytes) (i : Nat), i < 4 → bs.length = 128 →
    let ntens := leAt bs 0 4 / 2 ^ 24 % 8
    (ntens ≤ 5 → (Desc.ofBytes bs).param i = ((bs.drop (112 + 4 * i)).take 4).foldr (fun b a => b.toNat + 256 * a) 0) ∧ (ntens = 6 → (Desc.ofBytes bs).param i = 0)

/-! ### The whole block -/

/-- A step takes the command at the front of the queue and is that command's effect on the state with the queue's rest; on an empty queue GTC counts one cycle while the mesh is locked
(the model's choice, log 5), and nothing else happens. No row of the table has bits, so no word spells a command. -/
def Obligations.StepRunsTheFrontCommand : Prop :=
  (∀ (s : State) (c : Instr) (rest : List Instr), s.pending = c :: rest → step s = exec c { s with pending := rest }) ∧
    (∀ s : State, s.pending = [] → step s = .next (if s.board.flag Pg.clk F.clkStatusMeshLocked then { s with board := { s.board with gtc := s.board.gtc + 1 } } else s)) ∧
    ∀ (s : State) (nbits w : Nat), decodeTableWord nbits w = none ∧ s.withFetchWord nbits w = s

/-- R391, R422, R433, R467, R82, R103, R121, R322: after reset the module is in STANDBY without an owner, every switched domain off, every counter 0, every context FREE, every engine DARK
without a session; memory, the queue and the logs are empty and every table is canonical. Memory that nothing has written reads 0 (the model's choice, log 7). -/
def Obligations.ResetLeavesStandby : Prop :=
  let s := State.reset
  s.board.st = St.standby ∧ s.board.owner = none ∧ s.board.flag Pg.pwr F.pwrGlobalStatusFlushing = false ∧ s.board.on = [] ∧
    (∀ p off, s.board.cnt p off = 0) ∧ (∀ p off, off < 4096 → off % 4 = 0 → s.board.rd p off = resetWord (pageKindOf p) off) ∧
    (∀ n < 256, s.cstate n = Cs.free) ∧ (∀ e < 48, s.board.engState e = Eng.dark) ∧ (∀ g < 12, s.board.session g = Ses.none) ∧
    s.board.fld Pg.tk F.tkPeriodCycles = 20480 ∧ (∀ k < 96, s.board.fld (Pg.core k) F.coreSeConfigDescReserve = 16 ∧ s.board.fld (Pg.spx k) F.spxThresholdCountMax = 448 ∧
      s.board.fld (Pg.spx k) F.spxControlBitmapEn = 1) ∧
    s.gridRuns = false ∧ s.board.ringC.recs = [] ∧ s.board.ringB.recs = [] ∧ s.pending = [] ∧ (∀ a, memByte s.mem a = 0) ∧ s.canonical = true

/-- Every step answers a next state, from every state and for every command: no command of the table faults or is refused. It takes the front command off the queue and keeps the
register, counter and memory tables in their canonical form. -/
def Obligations.EveryStepKeepsTheForm : Prop :=
  ∀ s : State, ∃ t, step s = .next t ∧ t.pending = s.pending.tail ∧
    (Tbl.wf regDefault s.board.regs = true → Tbl.wf regDefault t.board.regs = true) ∧
    (Tbl.wf zero64 s.board.live = true → Tbl.wf zero64 s.board.snap = true → Tbl.wf zero64 t.board.live = true ∧ Tbl.wf zero64 t.board.snap = true) ∧
    (memWf s.mem = true → memWf t.mem = true) ∧ (s.canonical = true → t.canonical = true)
end

