-- ==== Sys2Proof/Laws/Bits.lean ====
section
/-! SUPPORT. Laws of register fields: what a field reads as after a field of the same word is set. -/
namespace Sys2Proof.Machine

theorem testBit_maskOf (msb lsb i : Nat) :
    (maskOf msb lsb).testBit i = (decide (lsb ≤ i) && decide (i - lsb < msb + 1 - lsb)) := by
  rw [maskOf, Nat.testBit_shiftLeft, Nat.testBit_two_pow_sub_one]

/-- Bit `i` of a word whose field `f` has been set. -/
theorem testBit_fset (w : Word) (f : Fld) (v i : Nat) :
    (fset w f v).toNat.testBit i =
      if f.lsb ≤ i ∧ i - f.lsb < f.width then decide (i < 32) && v.testBit (i - f.lsb) else w.toNat.testBit i := by
  have hw : i ≥ 32 → w.toNat.testBit i = false := fun h =>
    Nat.testBit_lt_two_pow (Nat.lt_of_lt_of_le w.isLt (Nat.pow_le_pow_right (by decide) h))
  simp only [fset, BitVec.toNat_or, BitVec.toNat_and, Nat.testBit_or, Nat.testBit_and, BitVec.toNat_ofNat, BitVec.toNat_not,
    Nat.testBit_mod_two_pow, Nat.testBit_shiftLeft]
  have hn : (2 ^ 32 - 1 - maskOf f.msb f.lsb % 2 ^ 32).testBit i =
      (decide (i < 32) && !(maskOf f.msb f.lsb % 2 ^ 32).testBit i) := by
    have := Nat.testBit_two_pow_sub_succ (x := maskOf f.msb f.lsb % 2 ^ 32) (n := 32) (Nat.mod_lt _ (by decide)) i
    rw [← this]; congr 1; omega
  rw [hn, Nat.testBit_mod_two_pow, testBit_maskOf]
  unfold Fld.width
  by_cases h1 : f.lsb ≤ i <;> by_cases h2 : i - f.lsb < f.msb + 1 - f.lsb <;> by_cases h3 : i < 32 <;>
    simp [h1, h2, h3] <;> first | done | (have := hw (by omega); simp_all)

/-- A field that has just been set reads as the value set, modulo the field's width. -/
theorem fget_fset_same (w : Word) (f : Fld) (v : Nat) (h : f.msb < 32) : fget (fset w f v) f = v % 2 ^ f.width := by
  apply Nat.eq_of_testBit_eq
  intro i
  simp only [fget, bitsOf, Nat.testBit_mod_two_pow, Nat.testBit_shiftRight, testBit_fset, Fld.width]
  by_cases h1 : i < f.msb + 1 - f.lsb
  · have h3 : f.lsb + i < 32 := by omega
    simp [h1, h3]
  · simp [h1]

/-- Setting a field leaves a field of other bits alone. -/
theorem fget_fset_other (w : Word) (f g : Fld) (v : Nat) (h : f.msb < g.lsb ∨ g.msb < f.lsb) :
    fget (fset w f v) g = fget w g := by
  apply Nat.eq_of_testBit_eq
  intro i
  simp only [fget, bitsOf, Nat.testBit_mod_two_pow, Nat.testBit_shiftRight, testBit_fset, Fld.width]
  by_cases h1 : i < g.msb + 1 - g.lsb
  · have : ¬ (f.lsb ≤ g.lsb + i ∧ g.lsb + i - f.lsb < f.msb + 1 - f.lsb) := by omega
    simp [h1, this]
  · simp [h1]

/-- What a field of `n` bits holds. -/
theorem bitsOf_lt (w msb lsb : Nat) : bitsOf w msb lsb < 2 ^ (msb + 1 - lsb) := Nat.mod_lt _ (Nat.two_pow_pos _)

/-- `toLE n` has `n` bytes. -/
@[simp] theorem length_toLE (n v : Nat) : (toLE n v).length = n := by
  induction n generalizing v with
  | zero => rfl
  | succ n ih => simp [toLE, ih]

/-- The number in the `n` low bytes of `v` is `v` modulo 256^n. -/
theorem leNat_toLE (n v : Nat) : leNat (toLE n v) = v % 256 ^ n := by
  induction n generalizing v with
  | zero => simp [toLE, leNat, Nat.mod_one]
  | succ n ih =>
    simp only [toLE, leNat, ih, BitVec.toNat_ofNat]
    have e : (256 : Nat) ^ (n + 1) = 256 * 256 ^ n := by rw [Nat.pow_succ, Nat.mul_comm]
    rw [e, Nat.mod_mul]

/-- A string of `n` bytes is the `n` low bytes of its number. -/
theorem toLE_leNat (bs : Bytes) : toLE bs.length (leNat bs) = bs := by
  induction bs with
  | nil => rfl
  | cons b r ih =>
    simp only [List.length_cons, toLE, leNat]
    have hb := b.isLt
    have e1 : BitVec.ofNat 8 (b.toNat + 256 * leNat r) = b := by
      apply BitVec.eq_of_toNat_eq; simp only [BitVec.toNat_ofNat]; omega
    have e2 : (b.toNat + 256 * leNat r) / 256 = leNat r := by omega
    rw [e1, e2, ih]

/-- A slice has the length asked for. -/
@[simp] theorem length_slice (bs : Bytes) (i n : Nat) : (slice bs i n).length = n := by
  simp only [slice, List.length_append, List.length_replicate, List.length_take, List.length_drop]
  omega

end Sys2Proof.Machine
end

