-- ==== Sys2Proof/Laws/Tbl.lean ====
section
/-! SUPPORT. Laws of the sparse tables: what a read after a write gives, and that every operation keeps the canonical form. -/
namespace Sys2Proof.Tbl

variable {α : Type}

theorem get_erase (d : Nat → α) (m : List (Nat × α)) (k j : Nat) :
    get d (erase m k) j = if j = k then d j else get d m j := by
  induction m with
  | nil => simp [erase, get]
  | cons e r ih =>
    obtain ⟨i, v⟩ := e
    by_cases h : k = i
    · subst h
      simp only [erase, if_true, ih, get]
      split <;> rfl
    · simp only [erase, if_neg h, get, ih]
      split
      · next h2 => rw [if_neg (fun h3 => h (h3.symm.trans h2))]
      · rfl

theorem get_insert (d : Nat → α) (m : List (Nat × α)) (k : Nat) (v : α) (j : Nat) (h : get d m k = d k ∨ j ≠ k) :
    (j ≠ k → get d (insert m k v) j = get d m j) := by
  intro hj
  induction m with
  | nil => simp [insert, get, hj]
  | cons e r ih =>
    obtain ⟨i, w⟩ := e
    simp only [insert]
    split
    · simp [get, hj]
    · simp only [get]
      split
      · rfl
      · exact ih (Or.inr hj)

theorem wfFrom_erase [DecidableEq α] (d : Nat → α) (m : List (Nat × α)) (lo k : Nat) (h : wfFrom d lo m = true) :
    wfFrom d lo (erase m k) = true := by
  induction m generalizing lo with
  | nil => rfl
  | cons e r ih =>
    obtain ⟨i, w⟩ := e
    simp only [wfFrom, Bool.and_eq_true, decide_eq_true_eq] at h
    obtain ⟨⟨h1, h2⟩, h3⟩ := h
    simp only [erase]
    split
    · have : ∀ a b (l : List (Nat × α)), a ≤ b → wfFrom d b l = true → wfFrom d a l = true := by
        intro a b l hab hb
        cases l with
        | nil => rfl
        | cons e l =>
          obtain ⟨x, y⟩ := e
          simp only [wfFrom, Bool.and_eq_true, decide_eq_true_eq] at hb ⊢
          exact ⟨⟨Nat.le_trans hab hb.1.1, hb.1.2⟩, hb.2⟩
      exact this lo (i + 1) _ (by omega) (ih _ h3)
    · simp only [wfFrom, Bool.and_eq_true, decide_eq_true_eq]
      exact ⟨⟨h1, h2⟩, ih _ h3⟩

theorem not_mem_erase (m : List (Nat × α)) (k : Nat) (v : α) : (k, v) ∉ erase m k := by
  induction m with
  | nil => simp [erase]
  | cons e r ih =>
    obtain ⟨i, w⟩ := e
    simp only [erase]
    split
    · exact ih
    · next h => simp [ih, h]

theorem get_insert_same (d : Nat → α) (m : List (Nat × α)) (k : Nat) (v : α) (h : ∀ w, (k, w) ∉ m) :
    get d (insert m k v) k = v := by
  induction m with
  | nil => simp [insert, get]
  | cons e r ih =>
    obtain ⟨i, w⟩ := e
    have hi : k ≠ i := fun hk => h w (by simp [hk])
    simp only [insert]
    split
    · simp [get]
    · simp only [get, if_neg hi]
      exact ih (fun w hw => h w (by simp [hw]))

theorem wfFrom_insert [DecidableEq α] (d : Nat → α) (m : List (Nat × α)) (lo k : Nat) (v : α) (hv : v ≠ d k)
    (hk : ∀ w, (k, w) ∉ m) (hlo : lo ≤ k) (h : wfFrom d lo m = true) : wfFrom d lo (insert m k v) = true := by
  induction m generalizing lo with
  | nil => simp [insert, wfFrom, hv, hlo]
  | cons e r ih =>
    obtain ⟨i, w⟩ := e
    have hi : k ≠ i := fun hh => hk w (by simp [hh])
    simp only [wfFrom, Bool.and_eq_true, decide_eq_true_eq] at h
    obtain ⟨⟨h1, h2⟩, h3⟩ := h
    simp only [insert]
    split
    · next hlt =>
      simp only [wfFrom, Bool.and_eq_true, decide_eq_true_eq]
      exact ⟨⟨hlo, hv⟩, ⟨by omega, h2⟩, h3⟩
    · simp only [wfFrom, Bool.and_eq_true, decide_eq_true_eq]
      exact ⟨⟨h1, h2⟩, ih _ (fun w hw => hk w (by simp [hw])) (by omega) h3⟩

/-- A read after a write of the same key gives the value written. -/
@[simp] theorem get_set_same [DecidableEq α] (d : Nat → α) (m : List (Nat × α)) (k : Nat) (v : α) : get d (set d m k v) k = v := by
  unfold set
  split
  · next h => rw [get_erase, if_pos rfl, h]
  · exact get_insert_same d _ k v (not_mem_erase m k)

/-- A write leaves every other key alone. -/
theorem get_set_other [DecidableEq α] (d : Nat → α) (m : List (Nat × α)) (k j : Nat) (v : α) (h : j ≠ k) :
    get d (set d m k v) j = get d m j := by
  unfold set
  split
  · rw [get_erase, if_neg h]
  · rw [get_insert d _ k v j (Or.inr h) h, get_erase, if_neg h]

/-- A write keeps the canonical form. -/
theorem wf_set [DecidableEq α] (d : Nat → α) (m : List (Nat × α)) (k : Nat) (v : α) (h : wf d m = true) : wf d (set d m k v) = true := by
  unfold wf at *
  unfold set
  split
  · exact wfFrom_erase d m 0 k h
  · next hv => exact wfFrom_insert d _ 0 k v hv (not_mem_erase m k) (Nat.zero_le k) (wfFrom_erase d m 0 k h)

theorem wfFrom_filter [DecidableEq α] (d : Nat → α) (p : Nat × α → Bool) (m : List (Nat × α)) (lo : Nat) (h : wfFrom d lo m = true) :
    wfFrom d lo (m.filter p) = true := by
  induction m generalizing lo with
  | nil => rfl
  | cons e r ih =>
    obtain ⟨i, w⟩ := e
    simp only [wfFrom, Bool.and_eq_true, decide_eq_true_eq] at h
    obtain ⟨⟨h1, h2⟩, h3⟩ := h
    have mono : ∀ a b (l : List (Nat × α)), a ≤ b → wfFrom d b l = true → wfFrom d a l = true := by
      intro a b l hab hb
      cases l with
      | nil => rfl
      | cons e l =>
        obtain ⟨x, y⟩ := e
        simp only [wfFrom, Bool.and_eq_true, decide_eq_true_eq] at hb ⊢
        exact ⟨⟨Nat.le_trans hab hb.1.1, hb.1.2⟩, hb.2⟩
    by_cases hp : p (i, w) = true
    · rw [List.filter_cons_of_pos hp]
      simp only [wfFrom, Bool.and_eq_true, decide_eq_true_eq]
      exact ⟨⟨h1, h2⟩, ih _ h3⟩
    · rw [List.filter_cons_of_neg hp]
      exact mono lo (i + 1) _ (by omega) (ih _ h3)

/-- Clearing a range keeps the canonical form. -/
theorem wf_clearRange [DecidableEq α] (d : Nat → α) (m : List (Nat × α)) (lo hi : Nat) (h : wf d m = true) :
    wf d (clearRange m lo hi) = true := wfFrom_filter d _ m 0 h

/-- A key of a cleared range reads as its default, every other key as before. -/
theorem get_clearRange (d : Nat → α) (m : List (Nat × α)) (lo hi j : Nat) :
    get d (clearRange m lo hi) j = if lo ≤ j ∧ j < hi then d j else get d m j := by
  induction m with
  | nil => simp [clearRange, get]
  | cons e r ih =>
    obtain ⟨i, w⟩ := e
    unfold clearRange at *
    by_cases hp : lo ≤ i ∧ i < hi
    · rw [List.filter_cons_of_neg (by simp; omega), ih]
      simp only [get]
      by_cases hj : j = i
      · subst hj; simp [hp]
      · simp [hj]
    · rw [List.filter_cons_of_pos (by simp; omega)]
      simp only [get, ih]
      by_cases hj : j = i
      · subst hj; simp [hp]
      · simp [hj]

end Sys2Proof.Tbl
end

