-- ==== Sys2Proof/Laws/Board.lean ====
section
/-! SUPPORT. Laws of the register file: reads after writes, and what each shared operation of Machine/Ops.lean and
Machine/Flags.lean leaves alone, each said once as `Board.Keeps`. -/
namespace Sys2Proof.Machine

/-! ### Registers and counters -/

@[simp] theorem rd_wr_same (b : Board) (p off : Nat) (w : Word) : (b.wr p off w).rd p off = w := by simp [Board.rd, Board.wr]

theorem rd_wr_other (b : Board) (p off q o2 : Nat) (w : Word) (h : regKey q o2 ≠ regKey p off) :
    (b.wr p off w).rd q o2 = b.rd q o2 := Tbl.get_set_other _ _ _ _ _ h

theorem rd_wr_key (b : Board) (p off q o2 : Nat) (w : Word) (h : regKey q o2 = regKey p off) : (b.wr p off w).rd q o2 = w := by
  simp [Board.rd, Board.wr, h]

theorem fld_setFld_same (b : Board) (p : Nat) (f : Fld) (v : Nat) (h : f.msb < 32) :
    (b.setFld p f v).fld p f = v % 2 ^ f.width := by
  simp only [Board.fld, Board.setFld, rd_wr_same, fget_fset_same _ _ _ h]

theorem fld_setFld_bits (b : Board) (p : Nat) (f g : Fld) (v : Nat) (h : f.msb < g.lsb ∨ g.msb < f.lsb) :
    (b.setFld p f v).fld p g = b.fld p g := by
  by_cases hk : regKey p g.off = regKey p f.off
  · simp only [Board.fld, Board.setFld, rd_wr_key _ _ _ _ _ _ hk, fget_fset_other _ _ _ _ h]
    have : b.rd p f.off = b.rd p g.off := by simp [Board.rd, hk]
    rw [this]
  · simp only [Board.fld, Board.setFld, rd_wr_other _ _ _ _ _ _ hk]

theorem fld_setFld_key (b : Board) (p q : Nat) (f g : Fld) (v : Nat) (h : regKey q g.off ≠ regKey p f.off) :
    (b.setFld p f v).fld q g = b.fld q g := by
  simp only [Board.fld, Board.setFld, rd_wr_other _ _ _ _ _ _ h]

theorem rd_setFld_key (b : Board) (p q : Nat) (f : Fld) (o v : Nat) (h : regKey q o ≠ regKey p f.off) :
    (b.setFld p f v).rd q o = b.rd q o := rd_wr_other _ _ _ _ _ _ h

theorem cnt_setCnt_same (b : Board) (p off v : Nat) : (b.setCnt p off v).cnt p off = v % 2 ^ 64 := by
  simp [Board.cnt, Board.setCnt]

theorem cnt_setCnt_other (b : Board) (p off q o2 v : Nat) (h : cntKey q o2 ≠ cntKey p off) :
    (b.setCnt p off v).cnt q o2 = b.cnt q o2 := by
  simp only [Board.cnt, Board.setCnt, Tbl.get_set_other _ _ _ _ _ h]

theorem cnt_inc_same (b : Board) (p off n : Nat) : (b.inc p off n).cnt p off = (b.cnt p off + n) % 2 ^ 64 := cnt_setCnt_same ..

theorem cnt_inc_other (b : Board) (p off q o2 n : Nat) (h : cntKey q o2 ≠ cntKey p off) :
    (b.inc p off n).cnt q o2 = b.cnt q o2 := cnt_setCnt_other _ _ _ _ _ _ h

@[simp] theorem rd_inc (b : Board) (p off n q o : Nat) : (b.inc p off n).rd q o = b.rd q o := rfl
@[simp] theorem fld_inc (b : Board) (p off n q : Nat) (f : Fld) : (b.inc p off n).fld q f = b.fld q f := rfl
@[simp] theorem cnt_wr (b : Board) (p off q o : Nat) (w : Word) : (b.wr p off w).cnt q o = b.cnt q o := rfl
@[simp] theorem cnt_setFld (b : Board) (p q o v : Nat) (f : Fld) : (b.setFld p f v).cnt q o = b.cnt q o := rfl
@[simp] theorem rd_emit (b : Board) (o : Out) (q x : Nat) : (b.emit o).rd q x = b.rd q x := rfl
@[simp] theorem fld_emit (b : Board) (o : Out) (q : Nat) (f : Fld) : (b.emit o).fld q f = b.fld q f := rfl
@[simp] theorem cnt_emit (b : Board) (o : Out) (q x : Nat) : (b.emit o).cnt q x = b.cnt q x := rfl

/-! ### `Board.Keeps` -/

/-- Nothing changes. -/
theorem Board.Keeps.refl (b : Board) (rs cs : List (Nat × Nat)) : b.Keeps b rs cs [] :=
  ⟨rfl, rfl, rfl, rfl, rfl, rfl, fun _ _ _ => rfl, fun _ _ _ => rfl, fun _ _ _ => rfl, by simp⟩

/-- Two changes in turn. -/
theorem Board.Keeps.trans {b b1 b2 : Board} {rs cs : List (Nat × Nat)} {o1 o2 : List Out} (h1 : b.Keeps b1 rs cs o1) (h2 : b1.Keeps b2 rs cs o2) :
    b.Keeps b2 rs cs (o1 ++ o2) :=
  ⟨h2.gtc.trans h1.gtc, h2.on.trans h1.on, h2.snap.trans h1.snap, h2.image.trans h1.image, h2.latch.trans h1.latch,
    h2.shelfLog.trans h1.shelfLog, fun l o h => (h2.table l o h).trans (h1.table l o h),
    fun p o h => (h2.regs p o h).trans (h1.regs p o h), fun p o h => (h2.cnts p o h).trans (h1.cnts p o h),
    by rw [h2.sends, h1.sends, List.append_assoc]⟩

/-- A wider list of what may change. -/
theorem Board.Keeps.mono {b b1 : Board} {rs rs2 cs cs2 : List (Nat × Nat)} {o : List Out} (h : b.Keeps b1 rs cs o) (hr : rs ⊆ rs2) (hc : cs ⊆ cs2) :
    b.Keeps b1 rs2 cs2 o :=
  ⟨h.gtc, h.on, h.snap, h.image, h.latch, h.shelfLog, h.table, fun p o hp => h.regs p o (fun r hr' => hp r (hr hr')),
    fun p o hp => h.cnts p o (fun c hc' => hp c (hc hc')), h.sends⟩

/-- Two changes that send nothing beside vectors. -/
theorem Board.Keeps.trans0 {b b1 b2 : Board} {rs cs : List (Nat × Nat)} {o : List Out} (h1 : b.Keeps b1 rs cs []) (h2 : b1.Keeps b2 rs cs o) :
    b.Keeps b2 rs cs o := by simpa using h1.trans h2

theorem wr_keeps (b : Board) (p off : Nat) (w : Word) : b.Keeps (b.wr p off w) [(p, off)] [] [] :=
  ⟨rfl, rfl, rfl, rfl, rfl, rfl, fun _ _ _ => rfl, fun q o h => rd_wr_other _ _ _ _ _ _ (fun e => h (p, off) (by simp) e.symm),
    fun _ _ _ => rfl, by simp [Board.msgs, Board.wr]⟩

theorem setFld_keeps (b : Board) (p : Nat) (f : Fld) (v : Nat) : b.Keeps (b.setFld p f v) [(p, f.off)] [] [] := wr_keeps ..

theorem setFlds_keeps (b : Board) (p : Nat) (l : List (Fld × Nat)) :
    b.Keeps (b.setFlds p l) (l.map (fun x => (p, x.1.off))) [] [] := by
  unfold Board.setFlds
  induction l generalizing b with
  | nil => exact Board.Keeps.refl ..
  | cons x r ih =>
    simp only [List.foldl_cons, List.map_cons]
    exact ((setFld_keeps b p x.1 x.2).mono (by simp) (by simp)).trans0 ((ih _).mono (by simp) (by simp))

theorem setCnt_keeps (b : Board) (p off v : Nat) : b.Keeps (b.setCnt p off v) [] [(p, off)] [] :=
  ⟨rfl, rfl, rfl, rfl, rfl, rfl, fun _ _ _ => rfl, fun _ _ _ => rfl,
    fun q o h => cnt_setCnt_other _ _ _ _ _ _ (fun e => h (p, off) (by simp) e.symm), by simp [Board.msgs, Board.setCnt]⟩

theorem inc_keeps (b : Board) (p off n : Nat) : b.Keeps (b.inc p off n) [] [(p, off)] [] := setCnt_keeps ..

theorem emit_keeps (b : Board) (o : Out) (h : o.isVector = false) : b.Keeps (b.emit o) [] [] [o] :=
  ⟨rfl, rfl, rfl, rfl, rfl, rfl, fun _ _ _ => rfl, fun _ _ _ => rfl, fun _ _ _ => rfl, by simp [Board.msgs, Board.emit, h]⟩

theorem emitVec_keeps (b : Board) (l v : Nat) : b.Keeps (b.emit (.vector l v)) [] [] [] :=
  ⟨rfl, rfl, rfl, rfl, rfl, rfl, fun _ _ _ => rfl, fun _ _ _ => rfl, fun _ _ _ => rfl, by simp [Board.msgs, Board.emit, Out.isVector]⟩

/-! ### Vectors -/

theorem msixWr_pba_keeps (b : Board) (l off : Nat) (w : Word) (ho : off < 4096) : b.Keeps (b.msixWr l true off w) [] [] [] := by
  refine ⟨rfl, rfl, rfl, rfl, rfl, rfl, fun l2 o2 h2 => ?_, fun _ _ _ => rfl, fun _ _ _ => rfl, by simp [Board.msgs, Board.msixWr]⟩
  refine Tbl.get_set_other _ _ _ _ _ ?_
  simp only [msixKey, b2n]
  simp
  omega

theorem signalOn_keeps (b : Board) (l v : Nat) : b.Keeps (b.signalOn l v) [] [] [] := by
  unfold Board.signalOn
  split
  · exact msixWr_pba_keeps _ _ _ _ (by decide)
  · exact emitVec_keeps ..

theorem signal_keeps (b : Board) (v : Nat) : b.Keeps (b.signal v) [] [] [] := by
  unfold Board.signal
  split
  · exact signalOn_keeps ..
  · exact Board.Keeps.refl ..

theorem signalBoth_keeps (b : Board) : b.Keeps b.signalBoth [] [] [] := (signalOn_keeps ..).trans0 (signalOn_keeps ..)

/-- A board that differs only in fields that `Board.Keeps` does not name. -/
theorem Board.Keeps.soft {b b1 : Board} {rs cs : List (Nat × Nat)} {o : List Out} (h : b.Keeps b1 rs cs o) (ho bk : Bool) (rc rb : LogRing)
    (co : List Coal) (ts : List EvRec) (tr : List (Nat × TraceRing)) (ev : List (Nat × Nat)) :
    b.Keeps { b1 with holding := ho, heldBack := bk, ringC := rc, ringB := rb, coal := co, toShelf := ts, traces := tr, evCls := ev } rs cs o :=
  ⟨h.gtc, h.on, h.snap, h.image, h.latch, h.shelfLog, h.table, h.regs, h.cnts, h.sends⟩

theorem signal0_keeps (b : Board) : b.Keeps b.signal0 [] [] [] := by
  unfold Board.signal0
  split
  · exact Board.Keeps.refl ..
  · split
    · exact (Board.Keeps.refl b [] []).soft ..
    · exact (signalOn_keeps ..).soft ..

theorem pendRise_keeps (b0 b : Board) (p : Nat) : b.Keeps (b0.pendRise b p) [] [] [] := by
  unfold Board.pendRise
  simp only
  split
  · exact signal0_keeps ..
  · exact Board.Keeps.refl ..

theorem signalOn_regs (b : Board) (l v : Nat) : (b.signalOn l v).regs = b.regs := by
  unfold Board.signalOn
  split
  · simp only [Board.msixWr]
  · simp only [Board.emit]

theorem signal_regs (b : Board) (v : Nat) : (b.signal v).regs = b.regs := by
  unfold Board.signal; split
  · exact signalOn_regs ..
  · rfl

theorem signal0_regs (b : Board) : b.signal0.regs = b.regs := by
  unfold Board.signal0
  split
  · rfl
  · split
    · rfl
    · exact signalOn_regs ..

theorem pendRise_regs (b0 b : Board) (p : Nat) : (b0.pendRise b p).regs = b.regs := by
  unfold Board.pendRise; simp only; split
  · exact signal0_regs ..
  · rfl

/-! ### Events and logs -/

theorem setEvent_keeps (b : Board) (p bit cls : Nat) : b.Keeps (b.setEvent p bit cls) [evReg p] [] [] := by
  unfold Board.setEvent
  simp only
  exact ((wr_keeps b p evtOff _).soft ..).trans0 ((pendRise_keeps ..).mono (by simp) (by simp))

/-- Setting an EVENT bit sets it and leaves the other EVENT bits of the page alone. -/
theorem evBit_setEvent (b : Board) (p bit cls j : Nat) (h : bit < 32) (hj : j < 32) :
    (b.setEvent p bit cls).evBit p j = (decide (j = bit) || b.evBit p j) := by
  unfold Board.setEvent
  simp only [Board.evBit, Board.rd, pendRise_regs]
  simp only [Board.wr, Tbl.get_set_same, BitVec.toNat_ofNat, Nat.testBit_mod_two_pow, setBit, Nat.testBit_or,
    Nat.one_shiftLeft, Nat.testBit_two_pow]
  by_cases e : j = bit
  · subst e; simp [hj]
  · have e2 : ¬ bit = j := fun x => e x.symm
    simp [hj, e, e2]

theorem mem_logCnts_of {o : Nat} (h : (Pg.trc, o) ∈ logCnts) : ∀ x ∈ [(Pg.trc, o)], x ∈ logCnts := by simpa using h

theorem fillCross_keeps (b : Board) (x y : Nat) : b.Keeps (b.fillCross x y) logRegs logCnts [] := by
  unfold Board.fillCross
  simp only
  split
  · exact ((setEvent_keeps ..).mono (by decide) (by simp)).trans0 ((signal_keeps ..).mono (by simp) (by simp))
  · exact Board.Keeps.refl ..

theorem recordC_keeps (b : Board) (p bit : Nat) : b.Keeps (b.recordC p bit) logRegs logCnts [] := by
  unfold Board.recordC
  simp only
  refine Board.Keeps.trans0 ?_ (fillCross_keeps ..)
  exact (((Board.Keeps.refl b [] []).soft ..).mono (by simp) (by simp)).trans0 ((inc_keeps ..).mono (by simp) (by decide))

theorem appendB_keeps (b : Board) (e : EvRec) : b.Keeps (b.appendB e) logRegs logCnts [] := by
  unfold Board.appendB
  simp only
  split
  · exact ((inc_keeps ..).mono (by simp) (by decide)).trans0 ((setEvent_keeps ..).mono (by decide) (by simp))
  · have h : b.Keeps ((Board.inc { b with ringB := b.ringB.push e, toShelf := b.toShelf ++ [{ e with seq := b.ringB.wi }] } Pg.trc Cn.trcBRecords 1).fillCross
        b.ringB.recs.length (b.ringB.recs.length + 1)) logRegs logCnts [] := by
      refine Board.Keeps.trans0 ?_ (fillCross_keeps ..)
      exact (((Board.Keeps.refl b [] []).soft ..).mono (by simp) (by simp)).trans0 ((inc_keeps ..).mono (by simp) (by decide))
    split
    · exact h.trans0 (((setFld_keeps ..).mono (by decide) (by simp)).soft ..)
    · exact h

theorem setCoal_keeps (b : Board) (p bit : Nat) (l : Option Nat) : b.Keeps (b.setCoal p bit l) [] [] [] := (Board.Keeps.refl b [] []).soft ..

theorem recordB_keeps (b : Board) (p bit : Nat) : b.Keeps (b.recordB p bit) logRegs logCnts [] := by
  unfold Board.recordB
  simp only
  have hi : b.Keeps (b.inc Pg.trc Cn.trcBCoalesced 1) logRegs logCnts [] := (inc_keeps ..).mono (by simp) (by decide)
  split
  · exact appendB_keeps ..
  · split
    · exact (appendB_keeps ..).trans0 ((setCoal_keeps ..).mono (by simp) (by simp))
    · split
      · exact (hi.trans0 (appendB_keeps ..)).trans0 ((setCoal_keeps ..).mono (by simp) (by simp))
      · split
        · exact hi.soft ..
        · exact (hi.trans0 (appendB_keeps ..)).trans0 ((setCoal_keeps ..).mono (by simp) (by simp))

/-- An event touches its page's EVENT, the logs and the trace counters, and nothing else. -/
theorem raiseAs_keeps (b : Board) (p bit : Nat) (cls : FClass) : b.Keeps (b.raiseAs p bit cls) (evReg p :: logRegs) logCnts [] := by
  have h : b.Keeps (b.setEvent p bit cls.code) (evReg p :: logRegs) logCnts [] := (setEvent_keeps ..).mono (by simp) (by simp)
  unfold Board.raiseAs
  simp only
  cases cls with
  | none => exact h
  | a => exact h.trans0 ((inc_keeps ..).mono (by simp) (by decide))
  | b => exact h.trans0 ((recordB_keeps ..).mono (by simp) (by simp))
  | c =>
    dsimp only
    split
    · exact h.trans0 ((recordC_keeps ..).mono (by simp) (by simp))
    · exact h

theorem raise_keeps (b : Board) (p : Nat) (f : Fld) : b.Keeps (b.raise p f) (evReg p :: logRegs) logCnts [] := raiseAs_keeps ..

theorem accErr_keeps (b : Board) (p off cause src : Nat) : b.Keeps (b.accErr p off cause src)
    ([(Pg.mod, F.modAccessLastPage.off), evReg Pg.mod] ++ logRegs) ((Pg.mod, Cn.modAccessErrors) :: logCnts) [] := by
  unfold Board.accErr
  exact (((inc_keeps ..).mono (by simp) (by simp)).trans0 ((setFlds_keeps ..).mono (by simp only [List.map]; decide) (by simp))).trans0
    ((raise_keeps ..).mono (by decide) (by simp))

theorem levelEvt_keeps (b : Board) (p off mask src : Nat) : b.Keeps (b.levelEvt p off mask src)
    ([(Pg.mod, F.modLevelLastPage.off), (Pg.mod, F.modLevelMaskBits.off), evReg Pg.mod] ++ logRegs) ((Pg.mod, Cn.modLevelWrites) :: logCnts) [] := by
  unfold Board.levelEvt
  exact (((inc_keeps ..).mono (by simp) (by simp)).trans0 ((setFlds_keeps ..).mono (by simp only [List.map]; decide) (by simp))).trans0
    ((raise_keeps ..).mono (by decide) (by simp))

/-! ### Consequences of a frame -/

theorem Board.Keeps.rd {b b1 : Board} {rs cs : List (Nat × Nat)} {o : List Out} (h : b.Keeps b1 rs cs o) (p off : Nat)
    (hp : ∀ r ∈ rs, regKey r.1 r.2 ≠ regKey p off) : b1.rd p off = b.rd p off := h.regs p off hp

theorem Board.Keeps.fld {b b1 : Board} {rs cs : List (Nat × Nat)} {o : List Out} (h : b.Keeps b1 rs cs o) (p : Nat) (f : Fld)
    (hp : ∀ r ∈ rs, regKey r.1 r.2 ≠ regKey p f.off) : b1.fld p f = b.fld p f := by
  simp only [Board.fld, h.regs p f.off hp]

theorem Board.Keeps.flag {b b1 : Board} {rs cs : List (Nat × Nat)} {o : List Out} (h : b.Keeps b1 rs cs o) (p : Nat) (f : Fld)
    (hp : ∀ r ∈ rs, regKey r.1 r.2 ≠ regKey p f.off) : b1.flag p f = b.flag p f := by
  simp only [Board.flag, h.fld p f hp]

theorem evBit_inc (b : Board) (p off n q j : Nat) : (b.inc p off n).evBit q j = b.evBit q j := rfl

/-- A register word outside the ones that logging touches keeps its EVENT bits. -/
theorem Board.Keeps.evBit {b b1 : Board} {rs cs : List (Nat × Nat)} {o : List Out} (h : b.Keeps b1 rs cs o) (p j : Nat)
    (hp : ∀ r ∈ rs, regKey r.1 r.2 ≠ regKey p evtOff) : b1.evBit p j = b.evBit p j := by
  simp only [Board.evBit, h.regs p evtOff hp]

/-- An event sets its bit of EVENT, and on a page other than TRC no other bit. -/
theorem evBit_raiseAs (b : Board) (p bit : Nat) (cls : FClass) (j : Nat) (hb : bit < 32) (hj : j < 32) (hp : p ≠ Pg.trc) :
    (b.raiseAs p bit cls).evBit p j = (decide (j = bit) || b.evBit p j) := by
  have hk : ∀ r ∈ logRegs, regKey r.1 r.2 ≠ regKey p evtOff := by
    intro r hr
    simp only [logRegs, List.mem_cons, List.not_mem_nil, or_false] at hr
    simp only [Pg.trc] at hp hr
    rcases hr with rfl | rfl <;> simp only [regKey, evtOff] <;> omega
  rw [← evBit_setEvent b p bit cls.code j hb hj]
  unfold Board.raiseAs
  simp only
  cases cls with
  | none => rfl
  | a => rfl
  | b => exact (recordB_keeps ..).evBit p j hk
  | c =>
    dsimp only
    split
    · exact (recordC_keeps ..).evBit p j hk
    · rfl

theorem evBit_raise (b : Board) (p : Nat) (f : Fld) (j : Nat) (hb : f.lsb < 32) (hj : j < 32) (hp : p ≠ Pg.trc) :
    (b.raise p f).evBit p j = (decide (j = f.lsb) || b.evBit p j) := evBit_raiseAs _ _ _ _ _ hb hj hp

end Sys2Proof.Machine
end

