-- ==== Sys2Proof/Laws/Gate.lean ====
section
/-! SUPPORT. Laws of the gate that every host write passes (R464). -/
namespace Sys2Proof.Machine

/-- A write that may reach its register does, counted. -/
theorem hostWrite_reaches {s : State} {l : Link} {page : Nat} (h : s.mayWrite l page) (off : Nat) (act : State → State) :
    hostWrite l page off act s = act s.counted := by
  obtain ⟨ha, hp, ho, hw, hf⟩ := h
  have hp' : s.counted.present page = true := hp
  have ho' : s.counted.board.owner = some (linkIdx l) := ho
  have hw' : s.counted.powered page = true := hw
  have hf' : s.counted.board.flag Pg.pwr F.pwrGlobalStatusFlushing = false := hf
  unfold hostWrite hostAccess gateWrite
  rw [if_neg (by simp [ha])]
  change (if (!s.counted.present page && !(pageKindOf page == .reserved)) = true then s.counted else _) = _
  rw [if_neg (by simp [hp'])]
  rw [if_neg (by
    have : (s.counted.board.owner == some (linkIdx l)) = true := by rw [ho']; simp
    change ¬ ((linkIdx l < 2 && !freeTarget page off && !(s.counted.board.owner == some (linkIdx l))) = true)
    rw [this]; simp)]
  rw [if_neg (by
    change ¬ ((!(pageKindOf page == .reserved) && !s.counted.powered page) = true)
    rw [hw']; simp)]
  change (if (!false && s.counted.board.flag Pg.pwr F.pwrGlobalStatusFlushing) = true then s.counted else act s.counted) = _
  rw [hf']; rfl

/-- A meaning of the usual shape completes: it suffices to look at the state it gives. -/
theorem completes_done {c : Instr} {s u : State} {Q : State → Prop} (h : exec c s = done s u) (hq : Q { u with pending := s.pending }) :
    Completes c s Q := ⟨_, h, rfl, hq⟩

theorem counted_keeps (s : State) : s.board.Keeps s.counted.board [] [(Pg.mod, Cn.modBar0Writes)] [] := inc_keeps ..

end Sys2Proof.Machine
end

