-- ==== Sys2Proof/Laws/Mem.lean ====
section
/-! SUPPORT. Laws of memory and of the board's tables: reads after writes, and that every operation keeps the canonical form. -/
namespace Sys2Proof.Machine

/-! ### Memory -/

theorem memWf_write (bs : Bytes) : ∀ (m : List Host.Cell) (a : Nat), memWf m = true → memWf (memWrite m a bs) = true := by
  induction bs with
  | nil => intro m a h; exact h
  | cons b r ih => intro m a h; exact ih _ _ (Tbl.wf_set _ _ _ _ h)

theorem memWf_writeAll (ws : List (Nat × Bytes)) : ∀ m : List Host.Cell, memWf m = true → memWf (ws.foldl (fun m w => memWrite m w.1 w.2) m) = true := by
  induction ws with
  | nil => intro m h; exact h
  | cons w r ih => intro m h; exact ih _ (memWf_write _ _ _ h)

theorem memWf_clear (m : List Host.Cell) (lo hi : Nat) (h : memWf m = true) : memWf (memClear m lo hi) = true := Tbl.wf_clearRange _ _ _ _ h

/-- A byte below a write reads as before. -/
theorem memByte_write_below (bs : Bytes) : ∀ (m : List Host.Cell) (a x : Nat), x < a → memByte (memWrite m a bs) x = memByte m x := by
  induction bs with
  | nil => intro m a x _; rfl
  | cons b r ih =>
    intro m a x h
    rw [memWrite, ih _ _ _ (by omega)]
    exact Tbl.get_set_other _ _ _ _ _ (by omega)

/-- What a byte reads as after a write: the byte written there, else what it was. -/
theorem memByte_write (bs : Bytes) : ∀ (m : List Host.Cell) (a x : Nat),
    memByte (memWrite m a bs) x = if a ≤ x ∧ x < a + bs.length then bs.getD (x - a) 0 else memByte m x := by
  induction bs with
  | nil => intro m a x; rw [if_neg (by simp)]; rfl
  | cons b r ih =>
    intro m a x
    rw [memWrite, ih]
    by_cases hx : x = a
    · subst hx
      rw [if_neg (by omega), if_pos (by simp)]
      have : memByte (Tbl.set memDefault m x b) x = b := Tbl.get_set_same memDefault m x b
      rw [this]; simp
    · have : memByte (Tbl.set memDefault m a b) x = memByte m x := Tbl.get_set_other _ _ _ _ _ hx
      rw [this]
      by_cases hr : a ≤ x ∧ x < a + (b :: r).length
      · rw [if_pos (by simp at hr; omega), if_pos hr]
        obtain ⟨k, hk⟩ : ∃ k, x - a = k + 1 := ⟨x - a - 1, by omega⟩
        rw [hk, show x - (a + 1) = k by omega]; simp
      · rw [if_neg (by simp at hr; omega), if_neg hr]

theorem memByte_clear (m : List Host.Cell) (lo hi x : Nat) : memByte (memClear m lo hi) x = if lo ≤ x ∧ x < hi then 0 else memByte m x :=
  Tbl.get_clearRange memDefault m lo hi x

theorem length_memRead (m : List Host.Cell) (n : Nat) : ∀ a, (memRead m a n).length = n := by
  induction n with
  | zero => intro a; rfl
  | succ n ih => intro a; simp [memRead, ih]

/-- Bytes read back as they were written. -/
theorem memRead_write (bs : Bytes) (m : List Host.Cell) (a : Nat) : memRead (memWrite m a bs) a bs.length = bs := by
  have key : ∀ (n k : Nat), k + n = bs.length → memRead (memWrite m a bs) (a + k) n = bs.drop k := by
    intro n
    induction n with
    | zero => intro k h; rw [List.drop_of_length_le (by omega)]; rfl
    | succ n ih =>
      intro k h
      have hk : k < bs.length := by omega
      rw [memRead, memByte_write, if_pos (by omega), show a + k + 1 = a + (k + 1) by omega, ih (k + 1) (by omega), List.drop_eq_getElem_cons hk]
      simp [show a + k - a = k by omega, hk]
  simpa using key bs.length 0 (by omega)

/-! ### The board's tables -/

/-- The registers, the counters and their copies are in their canonical form. -/
structure Board.Form (b : Board) : Prop where
  regs : Tbl.wf regDefault b.regs = true
  live : Tbl.wf zero64 b.live = true
  snap : Tbl.wf zero64 b.snap = true

theorem Board.Form.wr {b : Board} (h : b.Form) (p off : Nat) (w : Word) : (b.wr p off w).Form := ⟨Tbl.wf_set _ _ _ _ h.regs, h.live, h.snap⟩
theorem Board.Form.setFld {b : Board} (h : b.Form) (p : Nat) (f : Fld) (v : Nat) : (b.setFld p f v).Form := h.wr ..
theorem Board.Form.setFlds {b : Board} (h : b.Form) (p : Nat) (l : List (Fld × Nat)) : (b.setFlds p l).Form := by
  unfold Board.setFlds
  induction l generalizing b with
  | nil => exact h
  | cons x r ih => exact ih (h.setFld ..)
theorem Board.Form.setCnt {b : Board} (h : b.Form) (p off v : Nat) : (b.setCnt p off v).Form := ⟨h.regs, Tbl.wf_set _ _ _ _ h.live, h.snap⟩
theorem Board.Form.inc {b : Board} (h : b.Form) (p off n : Nat) : (b.inc p off n).Form := h.setCnt ..
theorem Board.Form.emit {b : Board} (h : b.Form) (o : Out) : (b.emit o).Form := ⟨h.regs, h.live, h.snap⟩
theorem Board.Form.resetPage {b : Board} (h : b.Form) (p : Nat) : (b.resetPage p).Form := ⟨Tbl.wf_clearRange _ _ _ _ h.regs, h.live, h.snap⟩
theorem Board.Form.resetCounters {b : Board} (h : b.Form) (p : Nat) : (b.resetCounters p).Form :=
  ⟨h.regs, Tbl.wf_clearRange _ _ _ _ h.live, Tbl.wf_clearRange _ _ _ _ h.snap⟩
/-- Only the tables count. -/
theorem Board.Form.same {b c : Board} (h : b.Form) (hr : c.regs = b.regs) (hl : c.live = b.live) (hs : c.snap = b.snap) : c.Form :=
  ⟨hr ▸ h.regs, hl ▸ h.live, hs ▸ h.snap⟩

/-! ### Events keep the form -/

/-- The logs do not count. -/
theorem Board.Form.soft {b : Board} (h : b.Form) (rc rb : LogRing) (co : List Coal) (ts : List EvRec) :
    Board.Form { b with ringC := rc, ringB := rb, coal := co, toShelf := ts } := ⟨h.regs, h.live, h.snap⟩

theorem signalOn_tables (b : Board) (l v : Nat) : (b.signalOn l v).live = b.live ∧ (b.signalOn l v).snap = b.snap := by
  unfold Board.signalOn; split
  · simp only [Board.msixWr, and_self]
  · simp only [Board.emit, and_self]

theorem Board.Form.signalOn {b : Board} (h : b.Form) (l v : Nat) : (b.signalOn l v).Form :=
  h.same (signalOn_regs ..) (signalOn_tables ..).1 (signalOn_tables ..).2

theorem Board.Form.signal {b : Board} (h : b.Form) (v : Nat) : (b.signal v).Form := by
  unfold Board.signal; split
  · exact h.signalOn ..
  · exact h

theorem Board.Form.signal0 {b : Board} (h : b.Form) : b.signal0.Form := by
  unfold Board.signal0
  split
  · exact h
  · split
    · exact h.same rfl rfl rfl
    · exact (h.signalOn _ 0).same rfl rfl rfl

theorem Board.Form.pendRise {b : Board} (h : b.Form) (b0 : Board) (p : Nat) : (b0.pendRise b p).Form := by
  unfold Board.pendRise; simp only; split
  · exact h.signal0
  · exact h

theorem Board.Form.setEvent {b : Board} (h : b.Form) (p bit cls : Nat) : (b.setEvent p bit cls).Form := by
  have hw := h.wr p evtOff (BitVec.ofNat 32 (setBit (b.rd p evtOff).toNat bit))
  unfold Board.setEvent; dsimp only
  generalize b.wr p evtOff (BitVec.ofNat 32 (setBit (b.rd p evtOff).toNat bit)) = b1 at hw ⊢
  apply Board.Form.pendRise
  exact ⟨hw.regs, hw.live, hw.snap⟩

theorem Board.Form.fillCross {b : Board} (h : b.Form) (x y : Nat) : (b.fillCross x y).Form := by
  unfold Board.fillCross; dsimp only
  refine iteInduction (fun _ => ?_) (fun _ => h)
  exact (h.setEvent ..).signal ..

theorem Board.Form.recordC {b : Board} (h : b.Form) (p bit : Nat) : (b.recordC p bit).Form := by
  unfold Board.recordC; dsimp only
  apply Board.Form.fillCross
  apply Board.Form.inc
  exact h.soft ..

theorem Board.Form.appendB {b : Board} (h : b.Form) (e : EvRec) : (b.appendB e).Form := by
  unfold Board.appendB; dsimp only
  refine iteInduction (fun _ => (h.inc ..).setEvent ..) (fun _ => ?_)
  have h2 : ((Board.inc { b with ringB := b.ringB.push e, toShelf := b.toShelf ++ [{ e with seq := b.ringB.wi }] } Pg.trc Cn.trcBRecords 1).fillCross
      b.ringB.recs.length (b.ringB.recs.length + 1)).Form := by
    apply Board.Form.fillCross
    apply Board.Form.inc
    exact h.soft ..
  refine iteInduction (fun _ => ?_) (fun _ => h2)
  exact (h2.setFld ..).soft ..

theorem Board.Form.recordB {b : Board} (h : b.Form) (p bit : Nat) : (b.recordB p bit).Form := by
  have hi := h.inc Pg.trc Cn.trcBCoalesced 1
  unfold Board.recordB; dsimp only
  refine iteInduction (fun _ => h.appendB _) (fun _ => ?_)
  split
  · exact (h.appendB _).soft ..
  · split
    · exact (hi.appendB _).soft ..
    · refine iteInduction (fun _ => hi.soft ..) (fun _ => (hi.appendB _).soft ..)

/-- An event keeps every table's form. -/
theorem Board.Form.raise {b : Board} (h : b.Form) (p : Nat) (f : Fld) : (b.raise p f).Form := by
  unfold Board.raise Board.raiseAs; dsimp only
  split
  · exact h.setEvent ..
  · exact (h.setEvent ..).inc ..
  · exact (h.setEvent ..).recordB ..
  · exact iteInduction (fun _ => (h.setEvent ..).recordC ..) (fun _ => h.setEvent ..)

end Sys2Proof.Machine
end

