-- ==== Sys2Proof/Laws/Power.lean ====
section
/-! SUPPORT. Laws of the power chapter's shared operations. -/
namespace Sys2Proof.Machine

/-- The search for the lowest nonzero cap: its result comes from the list or is the best so far, and no nonzero cap lies below it. -/
theorem lowestCap_spec (l : List Nat) (i : Nat) (best : Nat × Nat) :
    (lowestCap l i best = best ∨ ∃ k, l[k]? = some (lowestCap l i best).1 ∧ (lowestCap l i best).1 ≠ 0 ∧ (lowestCap l i best).2 = i + k) ∧
      (best.1 ≠ 0 → (lowestCap l i best).1 ≠ 0 ∧ (lowestCap l i best).1 ≤ best.1) ∧
      (∀ c ∈ l, c ≠ 0 → (lowestCap l i best).1 ≠ 0 ∧ (lowestCap l i best).1 ≤ c) := by
  induction l generalizing i best with
  | nil => exact ⟨Or.inl rfl, fun h => ⟨h, Nat.le_refl _⟩, fun c hc => by simp at hc⟩
  | cons v rest ih =>
    simp only [lowestCap]
    by_cases hv : v ≠ 0 ∧ (best.1 = 0 ∨ v < best.1)
    · rw [if_pos hv]
      obtain ⟨h1, h2, h3⟩ := ih (i + 1) (v, i)
      have h2 := h2 hv.1
      refine ⟨Or.inr ?_, fun hb => ⟨h2.1, ?_⟩, fun c hc hc0 => ?_⟩
      · rcases h1 with h1 | ⟨k, hk, hk0, hki⟩
        · exact ⟨0, by rw [h1]; rfl, by rw [h1]; exact hv.1, by rw [h1]; rfl⟩
        · exact ⟨k + 1, by simpa using hk, hk0, by omega⟩
      · have := h2.2; simp only at this; omega
      · rcases List.mem_cons.mp hc with rfl | hc
        · exact h2
        · exact h3 c hc hc0
    · rw [if_neg hv]
      obtain ⟨h1, h2, h3⟩ := ih (i + 1) best
      refine ⟨?_, h2, fun c hc hc0 => ?_⟩
      · rcases h1 with h1 | ⟨k, hk, hk0, hki⟩
        · exact Or.inl h1
        · exact Or.inr ⟨k + 1, by simpa using hk, hk0, by omega⟩
      · rcases List.mem_cons.mp hc with rfl | hc
        · have : best.1 ≠ 0 ∧ best.1 ≤ c := by omega
          have := h2 this.1; omega
        · exact h3 c hc hc0

theorem fuseCap_pos (v : Nat) : fuseCap v ≠ 0 ∧ fuseCap v < 2 ^ 16 := by
  unfold fuseCap; split <;> (try split) <;> decide

/-- CAP_EFFECTIVE after it is recomputed: the lowest nonzero source and its code; only CAP_EFFECTIVE, CAP_CHANGES and the event
change. -/
theorem applyCaps_spec (s : State) :
    s.applyCaps.capShown ∧ s.applyCaps = { s with board := s.applyCaps.board } ∧
      s.board.Keeps s.applyCaps.board ((Pg.pwr, 0x10C) :: evs [Pg.pwr]) ((Pg.pwr, Cn.pwrGlobalCapChanges) :: logCnts) [] := by
  obtain ⟨h1, h2, h3⟩ := lowestCap_spec s.capSources 0 (0, 0)
  have hf := fuseCap_pos s.store.variant
  have hmem : fuseCap s.store.variant ∈ s.capSources := by simp [State.capSources]
  have hne := h3 _ hmem hf.1
  generalize he : lowestCap s.capSources 0 (0, 0) = e at *
  have hk : ∃ k, s.capSources[k]? = some e.1 ∧ e.2 = k := by
    rcases h1 with h1 | ⟨k, a, b, c⟩
    · rw [h1] at hne; exact absurd rfl hne.1
    · exact ⟨k, a, by omega⟩
  obtain ⟨k, hk1, hk2⟩ := hk
  have hlen : k < 6 := by
    have := (List.getElem?_eq_some_iff.mp hk1).1
    simpa [State.capSources] using this
  have e1 : e.1 < 2 ^ 16 := Nat.lt_of_le_of_lt hne.2 hf.2
  have hkeep : s.board.Keeps s.applyCaps.board ((Pg.pwr, 0x10C) :: evs [Pg.pwr]) ((Pg.pwr, Cn.pwrGlobalCapChanges) :: logCnts) [] := by
    unfold State.applyCaps State.onBoard
    rw [he]
    simp only
    have hs := setFlds_keeps s.board Pg.pwr [(F.pwrGlobalCapEffectiveW10, e.1), (F.pwrGlobalCapEffectiveSource, e.2)]
    have hs := hs.mono (rs2 := (Pg.pwr, 0x10C) :: evs [Pg.pwr]) (cs2 := (Pg.pwr, Cn.pwrGlobalCapChanges) :: logCnts)
      (by simp only [List.map]; decide) (by simp)
    split
    · exact hs
    · exact (hs.trans0 ((inc_keeps ..).mono (by simp) (by simp))).trans0 ((raise_keeps ..).mono (by decide) (by simp))
  have hsrc : s.applyCaps.capSources = s.capSources := by
    have a := hkeep.fld Pg.pwr F.pwrGlobalCapLocalW10 (by decide)
    have b := hkeep.fld Pg.pwr F.pwrGlobalCapMgmtW10 (by decide)
    have c := hkeep.fld Pg.pwr F.pwrGlobalCapPmbusW10 (by decide)
    simp only [State.capSources, a, b, c]
    rfl
  have hb : ∀ b : Board, (b = ((s.board.setFlds Pg.pwr [(F.pwrGlobalCapEffectiveW10, e.1), (F.pwrGlobalCapEffectiveSource, e.2)]))) →
      b.fld Pg.pwr F.pwrGlobalCapEffectiveW10 = e.1 ∧ b.fld Pg.pwr F.pwrGlobalCapEffectiveSource = e.2 := by
    intro b hb
    subst hb
    simp only [Board.setFlds, List.foldl]
    constructor
    · rw [fld_setFld_bits _ _ _ _ _ (by decide), fld_setFld_same _ _ _ _ (by decide)]
      exact Nat.mod_eq_of_lt e1
    · rw [fld_setFld_same _ _ _ _ (by decide)]
      exact Nat.mod_eq_of_lt (by simp only [Fld.width, F.pwrGlobalCapEffectiveSource]; omega)
  have hfld : s.applyCaps.board.fld Pg.pwr F.pwrGlobalCapEffectiveW10 = e.1 ∧ s.applyCaps.board.fld Pg.pwr F.pwrGlobalCapEffectiveSource = e.2 := by
    unfold State.applyCaps State.onBoard
    rw [he]
    simp only
    split
    · exact hb _ rfl
    · rw [(raise_keeps ..).fld _ _ (by decide), (raise_keeps ..).fld _ _ (by decide), fld_inc, fld_inc]
      exact hb _ rfl
  refine ⟨⟨?_, ?_, ?_⟩, rfl, hkeep⟩
  · rw [hsrc, hfld.1, hfld.2, hk2]; exact hk1
  · rw [hfld.1]; exact hne.1
  · rw [hsrc, hfld.1]; exact fun c hc hc0 => (h3 c hc hc0).2

end Sys2Proof.Machine
end

