-- ==== Sys2Proof/Laws/State.lean ====
section
/-! SUPPORT. What each update of the state changes: one lemma per field, and what reading a unit gives after storing one. -/
namespace Sys2Proof.Machine

/-! ### onBoard -/

@[simp] theorem State.onBoard_pending (s : State) (f : Board → Board) : (s.onBoard f).pending = s.pending := rfl
@[simp] theorem State.onBoard_freeCtr (s : State) (f : Board → Board) : (s.onBoard f).freeCtr = s.freeCtr := rfl
@[simp] theorem State.onBoard_board (s : State) (f : Board → Board) : (s.onBoard f).board = f s.board := rfl
@[simp] theorem State.onBoard_mem (s : State) (f : Board → Board) : (s.onBoard f).mem = s.mem := rfl
@[simp] theorem State.onBoard_store (s : State) (f : Board → Board) : (s.onBoard f).store = s.store := rfl
@[simp] theorem State.onBoard_bup (s : State) (f : Board → Board) : (s.onBoard f).bup = s.bup := rfl
@[simp] theorem State.onBoard_tier (s : State) (f : Board → Board) : (s.onBoard f).tier = s.tier := rfl
@[simp] theorem State.onBoard_ctxs (s : State) (f : Board → Board) : (s.onBoard f).ctxs = s.ctxs := rfl
@[simp] theorem State.onBoard_parts (s : State) (f : Board → Board) : (s.onBoard f).parts = s.parts := rfl
@[simp] theorem State.onBoard_cores (s : State) (f : Board → Board) : (s.onBoard f).cores = s.cores := rfl
@[simp] theorem State.onBoard_feeds (s : State) (f : Board → Board) : (s.onBoard f).feeds = s.feeds := rfl
@[simp] theorem State.onBoard_trees (s : State) (f : Board → Board) : (s.onBoard f).trees = s.trees := rfl
@[simp] theorem State.onBoard_net (s : State) (f : Board → Board) : (s.onBoard f).net = s.net := rfl
@[simp] theorem State.onBoard_crown (s : State) (f : Board → Board) : (s.onBoard f).crown = s.crown := rfl
@[simp] theorem State.onBoard_fab (s : State) (f : Board → Board) : (s.onBoard f).fab = s.fab := rfl
@[simp] theorem State.onBoard_clk (s : State) (f : Board → Board) : (s.onBoard f).clk = s.clk := rfl
@[simp] theorem State.onBoard_pwr (s : State) (f : Board → Board) : (s.onBoard f).pwr = s.pwr := rfl
@[simp] theorem State.onBoard_mgmt (s : State) (f : Board → Board) : (s.onBoard f).mgmt = s.mgmt := rfl

/-! ### onCrown -/

@[simp] theorem State.onCrown_pending (s : State) (f : Crown → Crown) : (s.onCrown f).pending = s.pending := rfl
@[simp] theorem State.onCrown_freeCtr (s : State) (f : Crown → Crown) : (s.onCrown f).freeCtr = s.freeCtr := rfl
@[simp] theorem State.onCrown_board (s : State) (f : Crown → Crown) : (s.onCrown f).board = s.board := rfl
@[simp] theorem State.onCrown_mem (s : State) (f : Crown → Crown) : (s.onCrown f).mem = s.mem := rfl
@[simp] theorem State.onCrown_store (s : State) (f : Crown → Crown) : (s.onCrown f).store = s.store := rfl
@[simp] theorem State.onCrown_bup (s : State) (f : Crown → Crown) : (s.onCrown f).bup = s.bup := rfl
@[simp] theorem State.onCrown_tier (s : State) (f : Crown → Crown) : (s.onCrown f).tier = s.tier := rfl
@[simp] theorem State.onCrown_ctxs (s : State) (f : Crown → Crown) : (s.onCrown f).ctxs = s.ctxs := rfl
@[simp] theorem State.onCrown_parts (s : State) (f : Crown → Crown) : (s.onCrown f).parts = s.parts := rfl
@[simp] theorem State.onCrown_cores (s : State) (f : Crown → Crown) : (s.onCrown f).cores = s.cores := rfl
@[simp] theorem State.onCrown_feeds (s : State) (f : Crown → Crown) : (s.onCrown f).feeds = s.feeds := rfl
@[simp] theorem State.onCrown_trees (s : State) (f : Crown → Crown) : (s.onCrown f).trees = s.trees := rfl
@[simp] theorem State.onCrown_net (s : State) (f : Crown → Crown) : (s.onCrown f).net = s.net := rfl
@[simp] theorem State.onCrown_crown (s : State) (f : Crown → Crown) : (s.onCrown f).crown = f s.crown := rfl
@[simp] theorem State.onCrown_fab (s : State) (f : Crown → Crown) : (s.onCrown f).fab = s.fab := rfl
@[simp] theorem State.onCrown_clk (s : State) (f : Crown → Crown) : (s.onCrown f).clk = s.clk := rfl
@[simp] theorem State.onCrown_pwr (s : State) (f : Crown → Crown) : (s.onCrown f).pwr = s.pwr := rfl
@[simp] theorem State.onCrown_mgmt (s : State) (f : Crown → Crown) : (s.onCrown f).mgmt = s.mgmt := rfl

/-! ### setCtx -/

@[simp] theorem State.setCtx_pending (s : State) (n : Nat) (c : Ctx) : (s.setCtx n c).pending = s.pending := rfl
@[simp] theorem State.setCtx_freeCtr (s : State) (n : Nat) (c : Ctx) : (s.setCtx n c).freeCtr = s.freeCtr := rfl
@[simp] theorem State.setCtx_board (s : State) (n : Nat) (c : Ctx) : (s.setCtx n c).board = s.board := rfl
@[simp] theorem State.setCtx_mem (s : State) (n : Nat) (c : Ctx) : (s.setCtx n c).mem = s.mem := rfl
@[simp] theorem State.setCtx_store (s : State) (n : Nat) (c : Ctx) : (s.setCtx n c).store = s.store := rfl
@[simp] theorem State.setCtx_bup (s : State) (n : Nat) (c : Ctx) : (s.setCtx n c).bup = s.bup := rfl
@[simp] theorem State.setCtx_tier (s : State) (n : Nat) (c : Ctx) : (s.setCtx n c).tier = s.tier := rfl
@[simp] theorem State.setCtx_parts (s : State) (n : Nat) (c : Ctx) : (s.setCtx n c).parts = s.parts := rfl
@[simp] theorem State.setCtx_cores (s : State) (n : Nat) (c : Ctx) : (s.setCtx n c).cores = s.cores := rfl
@[simp] theorem State.setCtx_feeds (s : State) (n : Nat) (c : Ctx) : (s.setCtx n c).feeds = s.feeds := rfl
@[simp] theorem State.setCtx_trees (s : State) (n : Nat) (c : Ctx) : (s.setCtx n c).trees = s.trees := rfl
@[simp] theorem State.setCtx_net (s : State) (n : Nat) (c : Ctx) : (s.setCtx n c).net = s.net := rfl
@[simp] theorem State.setCtx_crown (s : State) (n : Nat) (c : Ctx) : (s.setCtx n c).crown = s.crown := rfl
@[simp] theorem State.setCtx_fab (s : State) (n : Nat) (c : Ctx) : (s.setCtx n c).fab = s.fab := rfl
@[simp] theorem State.setCtx_clk (s : State) (n : Nat) (c : Ctx) : (s.setCtx n c).clk = s.clk := rfl
@[simp] theorem State.setCtx_pwr (s : State) (n : Nat) (c : Ctx) : (s.setCtx n c).pwr = s.pwr := rfl
@[simp] theorem State.setCtx_mgmt (s : State) (n : Nat) (c : Ctx) : (s.setCtx n c).mgmt = s.mgmt := rfl

/-! ### updCtx -/

@[simp] theorem State.updCtx_pending (s : State) (n : Nat) (f : Ctx → Ctx) : (s.updCtx n f).pending = s.pending := rfl
@[simp] theorem State.updCtx_freeCtr (s : State) (n : Nat) (f : Ctx → Ctx) : (s.updCtx n f).freeCtr = s.freeCtr := rfl
@[simp] theorem State.updCtx_board (s : State) (n : Nat) (f : Ctx → Ctx) : (s.updCtx n f).board = s.board := rfl
@[simp] theorem State.updCtx_mem (s : State) (n : Nat) (f : Ctx → Ctx) : (s.updCtx n f).mem = s.mem := rfl
@[simp] theorem State.updCtx_store (s : State) (n : Nat) (f : Ctx → Ctx) : (s.updCtx n f).store = s.store := rfl
@[simp] theorem State.updCtx_bup (s : State) (n : Nat) (f : Ctx → Ctx) : (s.updCtx n f).bup = s.bup := rfl
@[simp] theorem State.updCtx_tier (s : State) (n : Nat) (f : Ctx → Ctx) : (s.updCtx n f).tier = s.tier := rfl
@[simp] theorem State.updCtx_parts (s : State) (n : Nat) (f : Ctx → Ctx) : (s.updCtx n f).parts = s.parts := rfl
@[simp] theorem State.updCtx_cores (s : State) (n : Nat) (f : Ctx → Ctx) : (s.updCtx n f).cores = s.cores := rfl
@[simp] theorem State.updCtx_feeds (s : State) (n : Nat) (f : Ctx → Ctx) : (s.updCtx n f).feeds = s.feeds := rfl
@[simp] theorem State.updCtx_trees (s : State) (n : Nat) (f : Ctx → Ctx) : (s.updCtx n f).trees = s.trees := rfl
@[simp] theorem State.updCtx_net (s : State) (n : Nat) (f : Ctx → Ctx) : (s.updCtx n f).net = s.net := rfl
@[simp] theorem State.updCtx_crown (s : State) (n : Nat) (f : Ctx → Ctx) : (s.updCtx n f).crown = s.crown := rfl
@[simp] theorem State.updCtx_fab (s : State) (n : Nat) (f : Ctx → Ctx) : (s.updCtx n f).fab = s.fab := rfl
@[simp] theorem State.updCtx_clk (s : State) (n : Nat) (f : Ctx → Ctx) : (s.updCtx n f).clk = s.clk := rfl
@[simp] theorem State.updCtx_pwr (s : State) (n : Nat) (f : Ctx → Ctx) : (s.updCtx n f).pwr = s.pwr := rfl
@[simp] theorem State.updCtx_mgmt (s : State) (n : Nat) (f : Ctx → Ctx) : (s.updCtx n f).mgmt = s.mgmt := rfl

/-! ### setPart -/

@[simp] theorem State.setPart_pending (s : State) (p : Nat) (x : Part) : (s.setPart p x).pending = s.pending := rfl
@[simp] theorem State.setPart_freeCtr (s : State) (p : Nat) (x : Part) : (s.setPart p x).freeCtr = s.freeCtr := rfl
@[simp] theorem State.setPart_board (s : State) (p : Nat) (x : Part) : (s.setPart p x).board = s.board := rfl
@[simp] theorem State.setPart_mem (s : State) (p : Nat) (x : Part) : (s.setPart p x).mem = s.mem := rfl
@[simp] theorem State.setPart_store (s : State) (p : Nat) (x : Part) : (s.setPart p x).store = s.store := rfl
@[simp] theorem State.setPart_bup (s : State) (p : Nat) (x : Part) : (s.setPart p x).bup = s.bup := rfl
@[simp] theorem State.setPart_tier (s : State) (p : Nat) (x : Part) : (s.setPart p x).tier = s.tier := rfl
@[simp] theorem State.setPart_ctxs (s : State) (p : Nat) (x : Part) : (s.setPart p x).ctxs = s.ctxs := rfl
@[simp] theorem State.setPart_cores (s : State) (p : Nat) (x : Part) : (s.setPart p x).cores = s.cores := rfl
@[simp] theorem State.setPart_feeds (s : State) (p : Nat) (x : Part) : (s.setPart p x).feeds = s.feeds := rfl
@[simp] theorem State.setPart_trees (s : State) (p : Nat) (x : Part) : (s.setPart p x).trees = s.trees := rfl
@[simp] theorem State.setPart_net (s : State) (p : Nat) (x : Part) : (s.setPart p x).net = s.net := rfl
@[simp] theorem State.setPart_crown (s : State) (p : Nat) (x : Part) : (s.setPart p x).crown = s.crown := rfl
@[simp] theorem State.setPart_fab (s : State) (p : Nat) (x : Part) : (s.setPart p x).fab = s.fab := rfl
@[simp] theorem State.setPart_clk (s : State) (p : Nat) (x : Part) : (s.setPart p x).clk = s.clk := rfl
@[simp] theorem State.setPart_pwr (s : State) (p : Nat) (x : Part) : (s.setPart p x).pwr = s.pwr := rfl
@[simp] theorem State.setPart_mgmt (s : State) (p : Nat) (x : Part) : (s.setPart p x).mgmt = s.mgmt := rfl

/-! ### setCore -/

@[simp] theorem State.setCore_pending (s : State) (c : Nat) (x : Core) : (s.setCore c x).pending = s.pending := rfl
@[simp] theorem State.setCore_freeCtr (s : State) (c : Nat) (x : Core) : (s.setCore c x).freeCtr = s.freeCtr := rfl
@[simp] theorem State.setCore_board (s : State) (c : Nat) (x : Core) : (s.setCore c x).board = s.board := rfl
@[simp] theorem State.setCore_mem (s : State) (c : Nat) (x : Core) : (s.setCore c x).mem = s.mem := rfl
@[simp] theorem State.setCore_store (s : State) (c : Nat) (x : Core) : (s.setCore c x).store = s.store := rfl
@[simp] theorem State.setCore_bup (s : State) (c : Nat) (x : Core) : (s.setCore c x).bup = s.bup := rfl
@[simp] theorem State.setCore_tier (s : State) (c : Nat) (x : Core) : (s.setCore c x).tier = s.tier := rfl
@[simp] theorem State.setCore_ctxs (s : State) (c : Nat) (x : Core) : (s.setCore c x).ctxs = s.ctxs := rfl
@[simp] theorem State.setCore_parts (s : State) (c : Nat) (x : Core) : (s.setCore c x).parts = s.parts := rfl
@[simp] theorem State.setCore_feeds (s : State) (c : Nat) (x : Core) : (s.setCore c x).feeds = s.feeds := rfl
@[simp] theorem State.setCore_trees (s : State) (c : Nat) (x : Core) : (s.setCore c x).trees = s.trees := rfl
@[simp] theorem State.setCore_net (s : State) (c : Nat) (x : Core) : (s.setCore c x).net = s.net := rfl
@[simp] theorem State.setCore_crown (s : State) (c : Nat) (x : Core) : (s.setCore c x).crown = s.crown := rfl
@[simp] theorem State.setCore_fab (s : State) (c : Nat) (x : Core) : (s.setCore c x).fab = s.fab := rfl
@[simp] theorem State.setCore_clk (s : State) (c : Nat) (x : Core) : (s.setCore c x).clk = s.clk := rfl
@[simp] theorem State.setCore_pwr (s : State) (c : Nat) (x : Core) : (s.setCore c x).pwr = s.pwr := rfl
@[simp] theorem State.setCore_mgmt (s : State) (c : Nat) (x : Core) : (s.setCore c x).mgmt = s.mgmt := rfl

/-! ### setFeed -/

@[simp] theorem State.setFeed_pending (s : State) (p : Nat) (x : Feed) : (s.setFeed p x).pending = s.pending := rfl
@[simp] theorem State.setFeed_freeCtr (s : State) (p : Nat) (x : Feed) : (s.setFeed p x).freeCtr = s.freeCtr := rfl
@[simp] theorem State.setFeed_board (s : State) (p : Nat) (x : Feed) : (s.setFeed p x).board = s.board := rfl
@[simp] theorem State.setFeed_mem (s : State) (p : Nat) (x : Feed) : (s.setFeed p x).mem = s.mem := rfl
@[simp] theorem State.setFeed_store (s : State) (p : Nat) (x : Feed) : (s.setFeed p x).store = s.store := rfl
@[simp] theorem State.setFeed_bup (s : State) (p : Nat) (x : Feed) : (s.setFeed p x).bup = s.bup := rfl
@[simp] theorem State.setFeed_tier (s : State) (p : Nat) (x : Feed) : (s.setFeed p x).tier = s.tier := rfl
@[simp] theorem State.setFeed_ctxs (s : State) (p : Nat) (x : Feed) : (s.setFeed p x).ctxs = s.ctxs := rfl
@[simp] theorem State.setFeed_parts (s : State) (p : Nat) (x : Feed) : (s.setFeed p x).parts = s.parts := rfl
@[simp] theorem State.setFeed_cores (s : State) (p : Nat) (x : Feed) : (s.setFeed p x).cores = s.cores := rfl
@[simp] theorem State.setFeed_trees (s : State) (p : Nat) (x : Feed) : (s.setFeed p x).trees = s.trees := rfl
@[simp] theorem State.setFeed_net (s : State) (p : Nat) (x : Feed) : (s.setFeed p x).net = s.net := rfl
@[simp] theorem State.setFeed_crown (s : State) (p : Nat) (x : Feed) : (s.setFeed p x).crown = s.crown := rfl
@[simp] theorem State.setFeed_fab (s : State) (p : Nat) (x : Feed) : (s.setFeed p x).fab = s.fab := rfl
@[simp] theorem State.setFeed_clk (s : State) (p : Nat) (x : Feed) : (s.setFeed p x).clk = s.clk := rfl
@[simp] theorem State.setFeed_pwr (s : State) (p : Nat) (x : Feed) : (s.setFeed p x).pwr = s.pwr := rfl
@[simp] theorem State.setFeed_mgmt (s : State) (p : Nat) (x : Feed) : (s.setFeed p x).mgmt = s.mgmt := rfl

/-! ### setTree -/

@[simp] theorem State.setTree_pending (s : State) (n : Nat) (x : Tree) : (s.setTree n x).pending = s.pending := rfl
@[simp] theorem State.setTree_freeCtr (s : State) (n : Nat) (x : Tree) : (s.setTree n x).freeCtr = s.freeCtr := rfl
@[simp] theorem State.setTree_board (s : State) (n : Nat) (x : Tree) : (s.setTree n x).board = s.board := rfl
@[simp] theorem State.setTree_mem (s : State) (n : Nat) (x : Tree) : (s.setTree n x).mem = s.mem := rfl
@[simp] theorem State.setTree_store (s : State) (n : Nat) (x : Tree) : (s.setTree n x).store = s.store := rfl
@[simp] theorem State.setTree_bup (s : State) (n : Nat) (x : Tree) : (s.setTree n x).bup = s.bup := rfl
@[simp] theorem State.setTree_tier (s : State) (n : Nat) (x : Tree) : (s.setTree n x).tier = s.tier := rfl
@[simp] theorem State.setTree_ctxs (s : State) (n : Nat) (x : Tree) : (s.setTree n x).ctxs = s.ctxs := rfl
@[simp] theorem State.setTree_parts (s : State) (n : Nat) (x : Tree) : (s.setTree n x).parts = s.parts := rfl
@[simp] theorem State.setTree_cores (s : State) (n : Nat) (x : Tree) : (s.setTree n x).cores = s.cores := rfl
@[simp] theorem State.setTree_feeds (s : State) (n : Nat) (x : Tree) : (s.setTree n x).feeds = s.feeds := rfl
@[simp] theorem State.setTree_net (s : State) (n : Nat) (x : Tree) : (s.setTree n x).net = s.net := rfl
@[simp] theorem State.setTree_crown (s : State) (n : Nat) (x : Tree) : (s.setTree n x).crown = s.crown := rfl
@[simp] theorem State.setTree_fab (s : State) (n : Nat) (x : Tree) : (s.setTree n x).fab = s.fab := rfl
@[simp] theorem State.setTree_clk (s : State) (n : Nat) (x : Tree) : (s.setTree n x).clk = s.clk := rfl
@[simp] theorem State.setTree_pwr (s : State) (n : Nat) (x : Tree) : (s.setTree n x).pwr = s.pwr := rfl
@[simp] theorem State.setTree_mgmt (s : State) (n : Nat) (x : Tree) : (s.setTree n x).mgmt = s.mgmt := rfl

/-! ### setEngine -/

@[simp] theorem State.setEngine_pending (s : State) (e : Nat) (x : Engine) : (s.setEngine e x).pending = s.pending := rfl
@[simp] theorem State.setEngine_freeCtr (s : State) (e : Nat) (x : Engine) : (s.setEngine e x).freeCtr = s.freeCtr := rfl
@[simp] theorem State.setEngine_board (s : State) (e : Nat) (x : Engine) : (s.setEngine e x).board = s.board := rfl
@[simp] theorem State.setEngine_mem (s : State) (e : Nat) (x : Engine) : (s.setEngine e x).mem = s.mem := rfl
@[simp] theorem State.setEngine_store (s : State) (e : Nat) (x : Engine) : (s.setEngine e x).store = s.store := rfl
@[simp] theorem State.setEngine_bup (s : State) (e : Nat) (x : Engine) : (s.setEngine e x).bup = s.bup := rfl
@[simp] theorem State.setEngine_tier (s : State) (e : Nat) (x : Engine) : (s.setEngine e x).tier = s.tier := rfl
@[simp] theorem State.setEngine_ctxs (s : State) (e : Nat) (x : Engine) : (s.setEngine e x).ctxs = s.ctxs := rfl
@[simp] theorem State.setEngine_parts (s : State) (e : Nat) (x : Engine) : (s.setEngine e x).parts = s.parts := rfl
@[simp] theorem State.setEngine_cores (s : State) (e : Nat) (x : Engine) : (s.setEngine e x).cores = s.cores := rfl
@[simp] theorem State.setEngine_feeds (s : State) (e : Nat) (x : Engine) : (s.setEngine e x).feeds = s.feeds := rfl
@[simp] theorem State.setEngine_trees (s : State) (e : Nat) (x : Engine) : (s.setEngine e x).trees = s.trees := rfl
@[simp] theorem State.setEngine_crown (s : State) (e : Nat) (x : Engine) : (s.setEngine e x).crown = s.crown := rfl
@[simp] theorem State.setEngine_fab (s : State) (e : Nat) (x : Engine) : (s.setEngine e x).fab = s.fab := rfl
@[simp] theorem State.setEngine_clk (s : State) (e : Nat) (x : Engine) : (s.setEngine e x).clk = s.clk := rfl
@[simp] theorem State.setEngine_pwr (s : State) (e : Nat) (x : Engine) : (s.setEngine e x).pwr = s.pwr := rfl
@[simp] theorem State.setEngine_mgmt (s : State) (e : Nat) (x : Engine) : (s.setEngine e x).mgmt = s.mgmt := rfl

/-! ### setGroup -/

@[simp] theorem State.setGroup_pending (s : State) (g : Nat) (x : Group) : (s.setGroup g x).pending = s.pending := rfl
@[simp] theorem State.setGroup_freeCtr (s : State) (g : Nat) (x : Group) : (s.setGroup g x).freeCtr = s.freeCtr := rfl
@[simp] theorem State.setGroup_board (s : State) (g : Nat) (x : Group) : (s.setGroup g x).board = s.board := rfl
@[simp] theorem State.setGroup_mem (s : State) (g : Nat) (x : Group) : (s.setGroup g x).mem = s.mem := rfl
@[simp] theorem State.setGroup_store (s : State) (g : Nat) (x : Group) : (s.setGroup g x).store = s.store := rfl
@[simp] theorem State.setGroup_bup (s : State) (g : Nat) (x : Group) : (s.setGroup g x).bup = s.bup := rfl
@[simp] theorem State.setGroup_tier (s : State) (g : Nat) (x : Group) : (s.setGroup g x).tier = s.tier := rfl
@[simp] theorem State.setGroup_ctxs (s : State) (g : Nat) (x : Group) : (s.setGroup g x).ctxs = s.ctxs := rfl
@[simp] theorem State.setGroup_parts (s : State) (g : Nat) (x : Group) : (s.setGroup g x).parts = s.parts := rfl
@[simp] theorem State.setGroup_cores (s : State) (g : Nat) (x : Group) : (s.setGroup g x).cores = s.cores := rfl
@[simp] theorem State.setGroup_feeds (s : State) (g : Nat) (x : Group) : (s.setGroup g x).feeds = s.feeds := rfl
@[simp] theorem State.setGroup_trees (s : State) (g : Nat) (x : Group) : (s.setGroup g x).trees = s.trees := rfl
@[simp] theorem State.setGroup_crown (s : State) (g : Nat) (x : Group) : (s.setGroup g x).crown = s.crown := rfl
@[simp] theorem State.setGroup_fab (s : State) (g : Nat) (x : Group) : (s.setGroup g x).fab = s.fab := rfl
@[simp] theorem State.setGroup_clk (s : State) (g : Nat) (x : Group) : (s.setGroup g x).clk = s.clk := rfl
@[simp] theorem State.setGroup_pwr (s : State) (g : Nat) (x : Group) : (s.setGroup g x).pwr = s.pwr := rfl
@[simp] theorem State.setGroup_mgmt (s : State) (g : Nat) (x : Group) : (s.setGroup g x).mgmt = s.mgmt := rfl

/-! ### wrBytes -/

@[simp] theorem State.wrBytes_pending (s : State) (a : Nat) (bs : Bytes) : (s.wrBytes a bs).pending = s.pending := rfl
@[simp] theorem State.wrBytes_freeCtr (s : State) (a : Nat) (bs : Bytes) : (s.wrBytes a bs).freeCtr = s.freeCtr := rfl
@[simp] theorem State.wrBytes_board (s : State) (a : Nat) (bs : Bytes) : (s.wrBytes a bs).board = s.board := rfl
@[simp] theorem State.wrBytes_mem (s : State) (a : Nat) (bs : Bytes) : (s.wrBytes a bs).mem = memWrite s.mem a bs := rfl
@[simp] theorem State.wrBytes_store (s : State) (a : Nat) (bs : Bytes) : (s.wrBytes a bs).store = s.store := rfl
@[simp] theorem State.wrBytes_bup (s : State) (a : Nat) (bs : Bytes) : (s.wrBytes a bs).bup = s.bup := rfl
@[simp] theorem State.wrBytes_tier (s : State) (a : Nat) (bs : Bytes) : (s.wrBytes a bs).tier = s.tier := rfl
@[simp] theorem State.wrBytes_ctxs (s : State) (a : Nat) (bs : Bytes) : (s.wrBytes a bs).ctxs = s.ctxs := rfl
@[simp] theorem State.wrBytes_parts (s : State) (a : Nat) (bs : Bytes) : (s.wrBytes a bs).parts = s.parts := rfl
@[simp] theorem State.wrBytes_cores (s : State) (a : Nat) (bs : Bytes) : (s.wrBytes a bs).cores = s.cores := rfl
@[simp] theorem State.wrBytes_feeds (s : State) (a : Nat) (bs : Bytes) : (s.wrBytes a bs).feeds = s.feeds := rfl
@[simp] theorem State.wrBytes_trees (s : State) (a : Nat) (bs : Bytes) : (s.wrBytes a bs).trees = s.trees := rfl
@[simp] theorem State.wrBytes_net (s : State) (a : Nat) (bs : Bytes) : (s.wrBytes a bs).net = s.net := rfl
@[simp] theorem State.wrBytes_crown (s : State) (a : Nat) (bs : Bytes) : (s.wrBytes a bs).crown = s.crown := rfl
@[simp] theorem State.wrBytes_fab (s : State) (a : Nat) (bs : Bytes) : (s.wrBytes a bs).fab = s.fab := rfl
@[simp] theorem State.wrBytes_clk (s : State) (a : Nat) (bs : Bytes) : (s.wrBytes a bs).clk = s.clk := rfl
@[simp] theorem State.wrBytes_pwr (s : State) (a : Nat) (bs : Bytes) : (s.wrBytes a bs).pwr = s.pwr := rfl
@[simp] theorem State.wrBytes_mgmt (s : State) (a : Nat) (bs : Bytes) : (s.wrBytes a bs).mgmt = s.mgmt := rfl

/-! ### wrAll -/

@[simp] theorem State.wrAll_pending (s : State) (ws : List (Nat × Bytes)) : (s.wrAll ws).pending = s.pending := rfl
@[simp] theorem State.wrAll_freeCtr (s : State) (ws : List (Nat × Bytes)) : (s.wrAll ws).freeCtr = s.freeCtr := rfl
@[simp] theorem State.wrAll_board (s : State) (ws : List (Nat × Bytes)) : (s.wrAll ws).board = s.board := rfl
@[simp] theorem State.wrAll_mem (s : State) (ws : List (Nat × Bytes)) : (s.wrAll ws).mem = ws.foldl (fun m w => memWrite m w.1 w.2) s.mem := rfl
@[simp] theorem State.wrAll_store (s : State) (ws : List (Nat × Bytes)) : (s.wrAll ws).store = s.store := rfl
@[simp] theorem State.wrAll_bup (s : State) (ws : List (Nat × Bytes)) : (s.wrAll ws).bup = s.bup := rfl
@[simp] theorem State.wrAll_tier (s : State) (ws : List (Nat × Bytes)) : (s.wrAll ws).tier = s.tier := rfl
@[simp] theorem State.wrAll_ctxs (s : State) (ws : List (Nat × Bytes)) : (s.wrAll ws).ctxs = s.ctxs := rfl
@[simp] theorem State.wrAll_parts (s : State) (ws : List (Nat × Bytes)) : (s.wrAll ws).parts = s.parts := rfl
@[simp] theorem State.wrAll_cores (s : State) (ws : List (Nat × Bytes)) : (s.wrAll ws).cores = s.cores := rfl
@[simp] theorem State.wrAll_feeds (s : State) (ws : List (Nat × Bytes)) : (s.wrAll ws).feeds = s.feeds := rfl
@[simp] theorem State.wrAll_trees (s : State) (ws : List (Nat × Bytes)) : (s.wrAll ws).trees = s.trees := rfl
@[simp] theorem State.wrAll_net (s : State) (ws : List (Nat × Bytes)) : (s.wrAll ws).net = s.net := rfl
@[simp] theorem State.wrAll_crown (s : State) (ws : List (Nat × Bytes)) : (s.wrAll ws).crown = s.crown := rfl
@[simp] theorem State.wrAll_fab (s : State) (ws : List (Nat × Bytes)) : (s.wrAll ws).fab = s.fab := rfl
@[simp] theorem State.wrAll_clk (s : State) (ws : List (Nat × Bytes)) : (s.wrAll ws).clk = s.clk := rfl
@[simp] theorem State.wrAll_pwr (s : State) (ws : List (Nat × Bytes)) : (s.wrAll ws).pwr = s.pwr := rfl
@[simp] theorem State.wrAll_mgmt (s : State) (ws : List (Nat × Bytes)) : (s.wrAll ws).mgmt = s.mgmt := rfl

/-! ### freeNat -/

@[simp] theorem State.freeNat_pending (s : State)  : (s.freeNat.2).pending = s.pending := rfl
@[simp] theorem State.freeNat_freeCtr (s : State)  : (s.freeNat.2).freeCtr = s.freeCtr + 1 := rfl
@[simp] theorem State.freeNat_board (s : State)  : (s.freeNat.2).board = s.board := rfl
@[simp] theorem State.freeNat_mem (s : State)  : (s.freeNat.2).mem = s.mem := rfl
@[simp] theorem State.freeNat_store (s : State)  : (s.freeNat.2).store = s.store := rfl
@[simp] theorem State.freeNat_bup (s : State)  : (s.freeNat.2).bup = s.bup := rfl
@[simp] theorem State.freeNat_tier (s : State)  : (s.freeNat.2).tier = s.tier := rfl
@[simp] theorem State.freeNat_ctxs (s : State)  : (s.freeNat.2).ctxs = s.ctxs := rfl
@[simp] theorem State.freeNat_parts (s : State)  : (s.freeNat.2).parts = s.parts := rfl
@[simp] theorem State.freeNat_cores (s : State)  : (s.freeNat.2).cores = s.cores := rfl
@[simp] theorem State.freeNat_feeds (s : State)  : (s.freeNat.2).feeds = s.feeds := rfl
@[simp] theorem State.freeNat_trees (s : State)  : (s.freeNat.2).trees = s.trees := rfl
@[simp] theorem State.freeNat_net (s : State)  : (s.freeNat.2).net = s.net := rfl
@[simp] theorem State.freeNat_crown (s : State)  : (s.freeNat.2).crown = s.crown := rfl
@[simp] theorem State.freeNat_fab (s : State)  : (s.freeNat.2).fab = s.fab := rfl
@[simp] theorem State.freeNat_clk (s : State)  : (s.freeNat.2).clk = s.clk := rfl
@[simp] theorem State.freeNat_pwr (s : State)  : (s.freeNat.2).pwr = s.pwr := rfl
@[simp] theorem State.freeNat_mgmt (s : State)  : (s.freeNat.2).mgmt = s.mgmt := rfl

/-! ### Reading after storing -/

@[simp] theorem State.ctx_setCtx_same (s : State) (k : Nat) (x : Ctx) : (s.setCtx k x).ctx k = x := Tbl.get_set_same ..
theorem State.ctx_setCtx_other (s : State) (k j : Nat) (x : Ctx) (h : j ≠ k) : (s.setCtx k x).ctx j = s.ctx j := Tbl.get_set_other _ _ _ _ _ h
@[simp] theorem State.part_setPart_same (s : State) (k : Nat) (x : Part) : (s.setPart k x).part k = x := Tbl.get_set_same ..
theorem State.part_setPart_other (s : State) (k j : Nat) (x : Part) (h : j ≠ k) : (s.setPart k x).part j = s.part j := Tbl.get_set_other _ _ _ _ _ h
@[simp] theorem State.core_setCore_same (s : State) (k : Nat) (x : Core) : (s.setCore k x).core k = x := Tbl.get_set_same ..
theorem State.core_setCore_other (s : State) (k j : Nat) (x : Core) (h : j ≠ k) : (s.setCore k x).core j = s.core j := Tbl.get_set_other _ _ _ _ _ h
@[simp] theorem State.feed_setFeed_same (s : State) (k : Nat) (x : Feed) : (s.setFeed k x).feed k = x := Tbl.get_set_same ..
theorem State.feed_setFeed_other (s : State) (k j : Nat) (x : Feed) (h : j ≠ k) : (s.setFeed k x).feed j = s.feed j := Tbl.get_set_other _ _ _ _ _ h
@[simp] theorem State.tree_setTree_same (s : State) (k : Nat) (x : Tree) : (s.setTree k x).tree k = x := Tbl.get_set_same ..
theorem State.tree_setTree_other (s : State) (k j : Nat) (x : Tree) (h : j ≠ k) : (s.setTree k x).tree j = s.tree j := Tbl.get_set_other _ _ _ _ _ h
@[simp] theorem State.engine_setEngine_same (s : State) (k : Nat) (x : Engine) : (s.setEngine k x).engine k = x := Tbl.get_set_same ..
theorem State.engine_setEngine_other (s : State) (k j : Nat) (x : Engine) (h : j ≠ k) : (s.setEngine k x).engine j = s.engine j := Tbl.get_set_other _ _ _ _ _ h
@[simp] theorem State.group_setGroup_same (s : State) (k : Nat) (x : Group) : (s.setGroup k x).group k = x := Tbl.get_set_same ..
theorem State.group_setGroup_other (s : State) (k j : Nat) (x : Group) (h : j ≠ k) : (s.setGroup k x).group j = s.group j := Tbl.get_set_other _ _ _ _ _ h
@[simp] theorem State.ctx_updCtx_same (s : State) (n : Nat) (f : Ctx → Ctx) : (s.updCtx n f).ctx n = f (s.ctx n) := State.ctx_setCtx_same ..
theorem State.ctx_updCtx_other (s : State) (n m : Nat) (f : Ctx → Ctx) (h : m ≠ n) : (s.updCtx n f).ctx m = s.ctx m := State.ctx_setCtx_other _ _ _ _ h

end Sys2Proof.Machine
end

