-- ==== Sys2Proof/WellFormed.lean ====
section
/-! DEFINITION. Which commands the module can be sent: every index names a unit that the module has, every fixed-size operand
has its size. What a register write or a message body may hold is for its meaning to decide, not checked here. -/
namespace Sys2Proof

/-- Cores 0 to 95 (R15). -/
def okCore (n : Nat) : Bool := decide (n < 96)
/-- Tiles 0 to 23 (R15). -/
def okTile (n : Nat) : Bool := decide (n < 24)
/-- Shared slices, 24 a tile (R15). -/
def okSlice (n : Nat) : Bool := decide (n < 576)
/-- Crossbars 0 to 23 and the spine (R202). -/
def okSwitch (n : Nat) : Bool := decide (n < 25)
/-- Ports of a switch. -/
def okPort (n : Nat) : Bool := decide (n < 64)
/-- Contexts 0 to 255 (R157). -/
def okCtx (n : Nat) : Bool := decide (n < 256)
/-- Partitions 0 to 15 (R166). -/
def okPart (n : Nat) : Bool := decide (n < 16)
/-- A 16-bit index (R136). -/
def okIndex16 (n : Nat) : Bool := decide (n < 65536)
/-- Engine groups 0 to 11 (R285). -/
def okGroup (n : Nat) : Bool := decide (n < 12)
/-- Link engines 0 to 47 (R16). -/
def okEngine (n : Nat) : Bool := decide (n < 48)
/-- Lanes 0 to 17 of an engine (R282). -/
def okLane (n : Nat) : Bool := decide (n < 18)
/-- Tree slots, 16 a quadrant (R256). -/
def okTree (n : Nat) : Bool := decide (n < 64)
/-- Quadrants 0 to 3 (R16). -/
def okQuad (n : Nat) : Bool := decide (n < 4)
/-- Mesh oscillators 0 to 47 (R350). -/
def okOsc (n : Nat) : Bool := decide (n < 48)
/-- Converter phases of a tile (R389). -/
def okPhase (n : Nat) : Bool := decide (n < 32)
/-- Array sites of a core (R66). -/
def okSite (n : Nat) : Bool := decide (n < 400)
/-- Strands of a core (R76). -/
def okStrand (n : Nat) : Bool := decide (n < 16384)
/-- DRAM channels (R180). -/
def okChannel (n : Nat) : Bool := decide (n < 3072)
/-- A 2 MiB page of the unified range (R172). -/
def okPage (n : Nat) : Bool := decide (n < 2 ^ 31)
/-- Register pages (R453). -/
def okRegPage (n : Nat) : Bool := decide (n < 1024)
/-- A register offset in a page (R453). -/
def okOffset (n : Nat) : Bool := decide (n < 4096) && n % 4 == 0
/-- Key slots 0 to 7 (R471). -/
def okSlot (n : Nat) : Bool := decide (n < 8)
/-- A unified address (R172). -/
def okAddr (n : Nat) : Bool := decide (n < 2 ^ 52)
/-- A BAR0 offset (R429). -/
def okBar0 (n : Nat) : Bool := decide (n < 2 ^ 22)
/-- A BAR2 offset (R429). -/
def okBar2 (n : Nat) : Bool := decide (n < 2 ^ 36)
/-- An 8-bit code. -/
def okByte (n : Nat) : Bool := decide (n < 256)
/-- A PCIe rate code (R428). -/
def okRate (n : Nat) : Bool := decide (1 ≤ n) && decide (n ≤ 5)
/-- A PCIe link width (R428). -/
def okWidth (n : Nat) : Bool := n == 1 || n == 2 || n == 4 || n == 8 || n == 16
/-- EVENT bits 0 to 15 (R462). -/
def okEventBit (n : Nat) : Bool := decide (n < 16)
/-- A batt header is 64 bytes (R229). -/
def okHdr (b : Bytes) : Bool := decide (b.length = 64)
/-- A flit is 256 bytes (R290). -/
def okFlit (b : Bytes) : Bool := decide (b.length = 256)
/-- A message body is at most a batt payload and its header. -/
def okBody (b : Bytes) : Bool := decide (b.length ≤ 1048576 + 4096)

/-- A command that the module can be sent. -/
def Instr.wf : Instr → Bool
  | .tickBoundary _ => true
  | .closePoint => true
  | .slowFlag core => okCore core
  | .sliceHot slice _ _ => okSlice slice
  | .linkHot sw port _ _ => okSwitch sw && okPort port
  | .seSaturated core => okCore core
  | .taskComplete core _ => okCore core
  | .doorbell _ ctx _ => okCtx ctx
  | .descriptorFetch ctx => okCtx ctx
  | .nop ctx => okCtx ctx
  | .step ctx => okCtx ctx
  | .gemm ctx => okCtx ctx
  | .gemmGrouped ctx => okCtx ctx
  | .attn ctx => okCtx ctx
  | .elem ctx => okCtx ctx
  | .norm ctx => okCtx ctx
  | .softmax ctx => okCtx ctx
  | .reduce ctx => okCtx ctx
  | .gather ctx => okCtx ctx
  | .scatterAdd ctx => okCtx ctx
  | .moeDispatch ctx => okCtx ctx
  | .moeCombine ctx => okCtx ctx
  | .quant ctx => okCtx ctx
  | .dequant ctx => okCtx ctx
  | .relay ctx => okCtx ctx
  | .transpose ctx => okCtx ctx
  | .sample ctx => okCtx ctx
  | .fullReduce ctx => okCtx ctx
  | .broadcast ctx => okCtx ctx
  | .allgather ctx => okCtx ctx
  | .migratePromote ctx => okCtx ctx
  | .migrateDemote ctx => okCtx ctx
  | .migrateSeal ctx => okCtx ctx
  | .operatorComplete ctx qindex => okCtx ctx && okIndex16 qindex
  | .budget ctx qindex => okCtx ctx && okIndex16 qindex
  | .enable _ ctx => okCtx ctx
  | .contextReset _ ctx => okCtx ctx
  | .disable _ ctx => okCtx ctx
  | .strandFault core ctx qindex strand => okCore core && okCtx ctx && okIndex16 qindex && okStrand strand
  | .arrayCheck core site => okCore core && okSite site
  | .wsEccError core _ _ => okCore core
  | .haccUpdate core _ _ => okCore core
  | .readRequest core addr _ _ _ => okCore core && okAddr addr
  | .readResponse tag _ _ => okIndex16 tag
  | .writeBurst _ _ addr _ _ => okAddr addr
  | .writeAck _ => true
  | .linkReplay sw port _ => okSwitch sw && okPort port
  | .seamReplay tile _ _ _ => okTile tile
  | .alloc _ => true
  | .free _ => true
  | .loadHood _ => true
  | .mapRemote _ => true
  | .installHood _ => true
  | .eraseHood _ => true
  | .undefinedMemCmd _ _ => true
  | .memCmdComplete => true
  | .loadComplete => true
  | .migrationPageDone page => okPage page
  | .memoryEccError _ _ _ _ => true
  | .refetchDone page => okPage page
  | .pounceScrub => true
  | .channelDown ch => okChannel ch
  | .arm _ p => okPart p
  | .armNext _ p => okPart p
  | .disarm _ p => okPart p
  | .retry _ p => okPart p
  | .batt hdr => okHdr hdr
  | .battPayloadEnd p _ _ => okPart p
  | .battCommit p _ => okPart p
  | .chainForward p _ _ _ => okPart p
  | .chainCommitNotice p _ => okPart p
  | .nak body => okBody body
  | .battMissing p _ => okPart p
  | .battDeadline p _ => okPart p
  | .barrierArrive core => okCore core
  | .barrierComplete p => okPart p
  | .localSegment core tree _ => okCore core && okTree tree
  | .seg group body => okGroup group && okBody body
  | .endMsg group body => okGroup group && okBody body
  | .win group body => okGroup group && okBody body
  | .down group body => okGroup group && okBody body
  | .downEnd group body => okGroup group && okBody body
  | .segmentRelease tree => okTree tree
  | .missingDeadline tree => okTree tree
  | .treeCfgWrite _ q off _ => okQuad q && okOffset off
  | .flitReceive engine flit => okEngine engine && okFlit flit
  | .replayReq engine _ => okEngine engine
  | .ackTimeout engine => okEngine engine
  | .replayFail engine => okEngine engine
  | .laneRetrain engine lane => okEngine engine && okLane lane
  | .laneSwapRequest engine x y => okEngine engine && okLane x && okLane y
  | .laneRetrainDone engine _ lane _ => okEngine engine && okLane lane
  | .lightLoss group => okGroup group
  | .ringUnlock engine lane => okEngine engine && okLane lane
  | .engineUp engine _ _ _ => okEngine engine
  | .engineDown engine => okEngine engine
  | .messageReceive group _ gmsn subkind body => okGroup group && okIndex16 gmsn && okByte subkind && okBody body
  | .offer group body => okGroup group && okBody body
  | .accept group body => okGroup group && okBody body
  | .refuse group body => okGroup group && okBody body
  | .close group => okGroup group
  | .reoffer _ group => okGroup group
  | .farLoop group body => okGroup group && okBody body
  | .loopback _ engine _ => okEngine engine
  | .peerMessage group body => okGroup group && okBody body
  | .rdata group body => okGroup group && okBody body
  | .rreadTimeout tag => okIndex16 tag
  | .sync group body _ => okGroup group && okBody body
  | .delayReq group body => okGroup group && okBody body
  | .delayResp group body => okGroup group && okBody body
  | .arrive group body => okGroup group && okBody body
  | .release group body => okGroup group && okBody body
  | .abort group body => okGroup group && okBody body
  | .abortTakeEffect => true
  | .snapshot body => okBody body
  | .groupReset body => okBody body
  | .remap group body => okGroup group && okBody body
  | .remapTakeEffect => true
  | .slowReport group body => okGroup group && okBody body
  | .battFailureNotice group body => okGroup group && okBody body
  | .missingContributorNotice group body => okGroup group && okBody body
  | .swapReq group body => okGroup group && okBody body
  | .swapAccept group body => okGroup group && okBody body
  | .swapRefuse group body => okGroup group && okBody body
  | .swapCommit group body => okGroup group && okBody body
  | .handoverTakeEffect => true
  | .crownAnnounce group body => okGroup group && okBody body
  | .crownLost => true
  | .swapReqCmd _ _ => true
  | .meshLock _ => true
  | .lockLost osc => okOsc osc
  | .phaseLimit _ => true
  | .fifoOverrun _ _ _ => true
  | .cdcTimeout _ => true
  | .resetNotify _ => true
  | .flushDone _ => true
  | .inputLow _ => true
  | .inputLowClear _ => true
  | .inputLoss _ => true
  | .inputDip _ => true
  | .flushStart => true
  | .flushComplete _ => true
  | .epo => true
  | .powerPresent _ => true
  | .openPhase tile phase => okTile tile && okPhase phase
  | .senseFail tile phase => okTile tile && okPhase phase
  | .ocGate tile _ => okTile tile
  | .capLocal _ _ => true
  | .gaugeSample _ _ _ => true
  | .inletHigh _ _ => true
  | .junctionWarn tile _ => okTile tile
  | .thermalTrip => true
  | .sensorFail tile _ => okTile tile
  | .sweatDrop tile _ => okTile tile
  | .clearFaults => true
  | .statusWord => true
  | .readVin => true
  | .readIin => true
  | .readTemperature1 => true
  | .readPin => true
  | .pmbusRevision => true
  | .mfrId => true
  | .mfrPowerCap _ => true
  | .pmbusNack code => okByte code
  | .powerOn _ => true
  | .powerOff _ => true
  | .recheck _ => true
  | .acceptCmd _ _ => true
  | .computeReset _ => true
  | .computeResetTakeEffect => true
  | .cfgBegin _ => true
  | .cfgData _ _ => true
  | .cfgCommit _ => true
  | .cfgRevert _ => true
  | .bringupStageEnd _ _ => true
  | .stageTimeout _ _ => true
  | .checkingComplete => true
  | .topoWait => true
  | .heldEntry page bit => okRegPage page && okEventBit bit
  | .fieldDefectAppend _ => true
  | .logProgram => true
  | .claim _ => true
  | .releaseOwner _ => true
  | .pcieLinkReset _ => true
  | .bar2Read _ off _ => okBar2 off
  | .bar2Write _ off _ => okBar2 off
  | .cap _ => true
  | .mgmtPowerOn _ => true
  | .mgmtPowerOff _ => true
  | .mgmtComputeReset _ => true
  | .setOwner _ => true
  | .readReg _ => true
  | .readMem _ => true
  | .subscribe _ => true
  | .remoteAccess _ => true
  | .unknownMgmtOp _ => true
  | .telemetryFrame => true
  | .eventW1c _ page _ => okRegPage page
  | .evtHoldoffExpiry => true
  | .lowWordRead _ page off => okRegPage page && okOffset off
  | .tkPeriodWrite _ _ => true
  | .splitWrite _ _ => true
  | .revoke _ slot => okSlot slot
  | .keyData _ _ => true
  | .install _ => true
  | .keyClear _ => true
  | .keyGraceExpiry slot => okSlot slot
  | .registerWrite _ addr _ _ => okBar0 addr
  | .lightReturn group => okGroup group
  | .aclkReturn => true
  | .pcieLinkUp _ rate width => okRate rate && okWidth width
  | .mgmtPortLink _ => true
  | .thermalCapClear => true
  | .capGateDeadline => true
  | .jobBarrierRelease => true
  | .newMapVersion engine _ => okEngine engine
  | .deputyLost => true
  | .classBFaultReport group body => okGroup group && okBody body
  | .degradedReport group body => okGroup group && okBody body
  | .hostExclusion _ body => okBody body
  | .crownRetryRequest body => okBody body
  | .faultDrainComplete => true
  | .remoteAccessResponse _ _ _ => true
  | .bar0Read _ addr _ => okBar0 addr
  | .blockRetired _ => true
  | .nandErrorCorrected => true

end Sys2Proof
end

