-- ==== Sys2Proof/Tests/Slice0.lean ====
section
/-! SUPPORT. Tests: the checks that refuse ill-formed commands, and for every statement a concrete state and operands that meet its
hypotheses, clause by clause. -/
open Sys2Proof Sys2Proof.Machine

namespace Sys2Proof.Tests

set_option Elab.async false

/-- The state after reset with some registers of the board set. -/
def withFlds (s : State) (l : List (Nat × Fld × Nat)) : State := s.onBoard (fun b => l.foldl (fun b x => b.setFld x.1 x.2.1 x.2.2) b)

/-- A module in SERVICE that link A owns, every domain on, no reset value of a register changed beside these. -/
def up : State :=
  withFlds ({ State.reset with board := { Board.reset with on := List.range 128 } }) [(Pg.bup, F.bupStatusState, 8), (Pg.tel, F.telStatusOwner, 1)]

/-! ### Power -/

theorem wit_TwoWireReadsAnswer : up.answers = true ∧ up.pwr.pmStatus = 0 := by decide
theorem wit_TwoWireReads_iin :
    let s := withFlds up [(Pg.pwr, F.pwrGlobalInputVin10mv, 4800), (Pg.pwr, F.pwrGlobalInputPowerW10, 2000)]
    s.answers = true ∧ 1000 * s.board.fld Pg.pwr F.pwrGlobalInputPowerW10 ≤ 1023 * 2 ^ 15 * s.board.fld Pg.pwr F.pwrGlobalInputVin10mv ∧
      0 < s.board.fld Pg.pwr F.pwrGlobalInputVin10mv := by decide
theorem wit_TwoWireClearAndNack : up.answers = true ∧ 0x8B < 256 ∧ 0x8B ∉ pmbusCodes := by decide
theorem wit_CapsTakeTheLowest : up.board.flag Pg.pwr F.pwrGlobalStatusFlushing = false ∧ up.mayWrite .a Pg.pwr ∧ up.answers = true ∧
    up.board.st ≠ St.off ∧ 4200 ≤ 4300 ∧ 4300 ≤ 4600 ∧ 4600 < 4800 ∧ 450 < 460 := by decide
theorem wit_TilePowerFaults_first : up.alive = true ∧ up.board.phase 23 19 ≠ 1 ∧ up.board.coreOpen 23 < 2 ∧ up.store.logCount + 1 < logMax ∧
    up.board.phase 23 19 = 0 ∧ 23 ∉ up.pwr.sweatTiles := by decide
theorem wit_TilePowerFaults_third :
    let s := withFlds up [(Pg.pwrTile 23, F.pwrTilePhaseState 0, 1), (Pg.pwrTile 23, F.pwrTilePhaseState 1, 1)]
    s.alive = true ∧ s.board.phase 23 19 ≠ 1 ∧ s.board.coreOpen 23 = 2 ∧ s.board.st = St.service := by decide
def riding : State := withFlds up [(Pg.pwr, F.pwrGlobalStatusRideThrough, 1)]
theorem wit_InputLoss_flushStart : riding.board.flag Pg.pwr F.pwrGlobalStatusRideThrough = true ∧
    riding.board.flag Pg.pwr F.pwrGlobalStatusFlushing = false ∧ riding.board.st ≠ St.off ∧ 3 ∈ riding.board.on := by decide
theorem wit_InputLoss_flushComplete : (withFlds riding [(Pg.pwr, F.pwrGlobalStatusFlushing, 1)]).board.flag Pg.pwr F.pwrGlobalStatusFlushing = true := by decide
theorem wit_InputLoss_powerPresent : (withFlds up [(Pg.bup, F.bupStatusState, 0)]).board.st = St.off ∧ up.store.lastOff < 4 := by decide
theorem wit_Junctions : up.board.st ≠ St.off ∧ up.board.fld Pg.thm F.thmLimitsWarnC ≤ 95 ∧ 91 + 3 < up.board.fld Pg.thm F.thmLimitsWarnC ∧
    Tbl.get (fun _ => false) up.pwr.warnTile 0 = false ∧ up.alive = true ∧ up.board.flag Pg.thm F.thmStatusTripped = false := by decide
theorem wit_Junctions_capGate :
    let s := withFlds up [(Pg.pwr, F.pwrGlobalInputPowerW10, 3000)]
    s.alive = true ∧ s.pwr.capGate = false ∧ s.board.fld Pg.pwr F.pwrGlobalCapEffectiveW10 < s.board.fld Pg.pwr F.pwrGlobalInputPowerW10 := by decide
theorem wit_Gauges : up.board.st ≠ St.off ∧ up.board.st ≠ St.standby := by decide
theorem wit_Gauges_mismatch :
    let ev := 1200 * (4800 * 4800 - 3600 * 3600)
    let ec := 1200 * (4800 * 4800 - 3600 * 3600) - 300 * 20000000
    max ev ec < 10 * (max ev ec - min ev ec) := by decide

/-! ### Clocks -/

theorem wit_MeshLocks_lock :
    let s := withFlds up [(Pg.bup, F.bupStatusState, 3)]
    s.board.st = St.calibrating ∧ s.board.meshLocked = false := by decide
theorem wit_MeshLocks_phase :
    let s := withFlds up [(Pg.clk, F.clkStatusMeshLocked, 1)]
    s.alive = true ∧ s.powered Pg.clk = true ∧ s.board.meshLocked = true := by decide
theorem wit_Crossings : up.powered Pg.clk = true ∧ sideKnown 300 = true ∧ up.alive = true ∧ up.board.st = St.service ∧
    (clockOk (.osc 47) = true ∧ clockCode (.osc 47) ∉ up.clk.stopped ∧ clockCode (.osc 47) ∉ up.clk.inReset) ∧
    (clockOk .aclk = true ∧ clockCode .aclk ∉ up.clk.stopped) ∧ (clockOk .shclk = true ∧ clockCode .shclk ∉ up.clk.stopped) ∧
    (clockOk (.dclk 95) = true ∧ clockCode (.dclk 95) ∉ up.clk.stopped) := by decide
theorem wit_Crossings_lane : (withFlds up [(Pg.hb 47, F.hbStatusEngState, 3)]).board.engState 47 = Eng.up ∧ clockOk (.lane 47) = true := by decide
theorem wit_Crossings_leavesReset :
    let s : State := { up with clk := { inReset := [204, 300], stopped := [], stepEnd := 0 } }
    s.powered Pg.clk = true ∧ s.alive = true ∧ clockCode (.pcie .a) ∉ s.clk.stopped ∧ clockCode (.pcie .a) ∈ s.clk.inReset ∧ s.clk.inReset.Nodup := by decide
theorem wit_Faulted_aclk : ({ up with clk := { inReset := [], stopped := [311], stepEnd := 0 } } : State).aclkStopped = true := by decide
theorem wit_Faulted_drain : (withFlds up [(Pg.bup, F.bupStatusState, 10)]).board.st = St.faulted := by decide

/-! ### Bring-up -/

/-- The same module in another state of R391. -/
def inState (n : Nat) : State := withFlds up [(Pg.bup, F.bupStatusState, n)]
/-- A stage of bring-up runs. -/
def atStage (n : Nat) : State := withFlds up [(Pg.bup, F.bupStatusState, 3), (Pg.bup, F.bupStatusStage, n), (Pg.clk, F.clkStatusMeshLocked, 1)]

theorem wit_Stages : (atStage 1).stage = 1 ∧ (atStage 2).stage = 2 ∧ (atStage 2).board.meshLocked = true ∧ (atStage 4).stage = 4 ∧ (atStage 6).stage = 6 := by decide
theorem wit_Checking : (inState 6).board.st = St.checking ∧ (inState 6).bup.toService = false ∧ (inState 6).sessionsReady = true := by decide
theorem wit_ClassC : up.alive = true ∧ up.present (Pg.drm 95) = true ∧ up.powered (Pg.drm 95) = true ∧
    heldBit (pageKindOf (Pg.drm 95)) F.drmEventChannelDown.lsb = true ∧ up.board.st = St.service := by decide
theorem wit_ClassC_elsewhere : (inState 4).alive = true ∧ (inState 4).present Pg.fabSpine = true ∧ (inState 4).powered Pg.fabSpine = true ∧
    heldBit (pageKindOf Pg.fabSpine) F.fabSpineEventLinkFault.lsb = true ∧ (inState 4).board.st ≠ St.service := by decide
theorem wit_BringupCommands_powerOn : (inState 1).mayWrite .a Pg.bup ∧ (inState 1).board.st = St.standby ∧
    (inState 1).board.flag Pg.thm F.thmStatusInletHigh = false ∧ (inState 1).board.flag Pg.thm F.thmStatusFlowLow = false ∧
    (inState 1).board.flag Pg.pwr F.pwrGlobalStatusHoldupReady = false ∧
    (withFlds (inState 1) [(Pg.pwr, F.pwrGlobalStatusHoldupReady, 1)]).board.flag Pg.pwr F.pwrGlobalStatusHoldupReady = true := by decide
theorem wit_BringupCommands_held : (inState 7).mayWrite .a Pg.bup ∧ (inState 7).board.st = St.held ∧ (inState 7).board.st ≠ St.standby ∧
    bitsWithout 0x2C0 0x2C0 = 0 ∧ bitsWithout 0x2C1 0x2C0 ≠ 0 := by decide
theorem wit_CommandsOutOfState : up.mayWrite .a Pg.bup ∧ up.board.st ≠ St.standby ∧ up.board.st ≠ St.held ∧ (inState 1).mayWrite .a Pg.bup ∧
    (inState 1).board.st = St.standby ∧ (inState 1).cfgState = false ∧ (inState 1).board.st ≠ St.service := by decide
theorem wit_Configuration_begin : up.mayWrite .a Pg.bup ∧ up.cfgState = true ∧ up.bup.staging.length + 4 ≤ 2 ^ 20 ∧ up.bup.stagingOver = false ∧
    up.stagedGood = false := by decide
/-- A configuration with an empty RWB image, GENERATION 1. -/
def smallConfig : Bytes :=
  let block := fun (type : Nat) (payload : Bytes) =>
    toLE 4 0x43464742 ++ toLE 1 type ++ toLE 1 1 ++ toLE 2 0 ++ toLE 4 payload.length ++ toLE 4 1 ++ toLE 8 (crc64 payload) ++ toLE 8 0 ++ payload
  block 1 (toLE 8 0 ++ (List.replicate 12 (toLE 8 0x10100000000)).flatten) ++ block 3 [] ++ block 4 (toLE 4 3)
theorem wit_Configuration_commit :
    let s : State := { up with bup := { up.bup with staging := smallConfig } }
    s.stagedGood = true ∧ s.shelfBusy = false := by decide +kernel
theorem wit_CfgRevert_above :
    let s : State := { inState 7 with store := { Store.reset with bankA := smallConfig.take 136 } }
    s.mayWrite .a Pg.bup ∧ s.board.st = St.held ∧
      (blocksOf s.store.bankA ++ blocksOf s.store.bankB).any (fun x => x.above (currentBank (blocksOf s.store.bankA) (blocksOf s.store.bankB))) = true := by decide +kernel
theorem wit_CfgRevert_current :
    let s : State := { inState 7 with store := { Store.reset with bankA := smallConfig, bankB := smallConfig } }
    let cur := currentBank (blocksOf s.store.bankA) (blocksOf s.store.bankB)
    (blocksOf s.store.bankA ++ blocksOf s.store.bankB).all (fun x => !x.above cur) = true ∧ cur = some (0, 1) ∧
      commitGen (blocksOf s.store.bankB) ≠ none ∧ commitGen (blocksOf Store.reset.bankB) = none := by decide +kernel
theorem wit_ComputeReset :
    let s : State := withFlds { up with bup := { up.bup with resetPending := true } } [(Pg.tk, F.tkStatusRunning, 1)]
    s.board.st = St.service ∧ s.bup.resetPending = true ∧ s.gridRuns = true := by decide
theorem wit_FieldDefects : up.alive = true ∧ up.store.logCount + 1 < logMax ∧ 3 ∈ up.board.on ∧ (2 : Nat) ∉ [8, 9, 12] ∧
    up.board.shelfLog.length + up.board.toShelf.length ≤ shelfLogMax := by decide
theorem wit_FieldDefects_full (l : List Defect) (h : l.length = logMax) :
    ({ up with store := { Store.reset with fieldLog := l } } : State).store.logCount = logMax := by
  simp [Store.logCount, Store.reset, h]

/-! ### Ownership, management and registers -/

theorem wit_Ownership : up.answers = true ∧ up.board.flag Pg.pwr F.pwrGlobalStatusFlushing = false ∧ up.board.owner = some (linkIdx .a) ∧
    up.board.owner = some (1 - linkIdx .b) ∧ (withFlds up [(Pg.tel, F.telStatusOwner, 0)]).board.owner = none ∧ 7 < 8 ∧ 31 < 32 := by decide
/-- BAR2 aperture 0 onto this rack, core 0 enabled, and page 32,768 mapped as a writable tier 0 page. -/
def reach : State :=
  { withFlds up [(Pg.tel, F.telApertureLoEnable 0, 1), (Pg.tel, F.telApertureLoWriteEn 0, 1), (Pg.tel, F.telApertureHiBase 0, 0xFFF00010)] with
    tier := { Tier.reset with map := [(32768, { PageEntry.none with valid := true, writable := true, frame := 256 })] } }
theorem wit_Apertures : reach.answers = true ∧ reach.board.aperture 0 = some 0xFFF0001000000000 ∧ reach.isOwnRack 0xFFF0001000000000 = true ∧
    (reach.hostRead 0xFFF0001000000000 64).isSome = true ∧ reach.writablePages (0xFFF0001000000000 % 2 ^ 52) 1 = true ∧
    reach.rangeOn (0xFFF0001000000000 % 2 ^ 52) 1 = true ∧ reach.board.flag Pg.tel (F.telApertureLoWriteEn 0) = true ∧ up.board.aperture 0 = none := by decide +kernel
theorem wit_Apertures_fail : (reach.hostRead 0xFFF0001000200000 64) = none ∧ reach.writablePages (0xFFF0001000200000 % 2 ^ 52) 1 = false := by decide +kernel
theorem wit_Apertures_foreign :
    let s := withFlds up [(Pg.tel, F.telApertureLoEnable 0, 1), (Pg.tel, F.telApertureHiBase 0, 0x00500010)]
    s.board.aperture 0 = some 0x0050001000000000 ∧ s.isOwnRack 0x0050001000000000 = false := by decide +kernel
/-- A manager 0 with a key of 32 bytes. -/
def managed (s : State) : State :=
  { withFlds s [(Pg.lic, F.licSlotEnabled 6, 1)] with store := { s.store with keys := List.replicate 6 ⟨[], false⟩ ++ [⟨List.replicate 32 5, false⟩, ⟨[], false⟩] } }
/-- A datagram of that manager. -/
def datagramOf (op seq : Nat) (args data : Bytes) : Bytes :=
  let head := toLE 4 0x4D474D54 ++ [0, BitVec.ofNat 8 op, 0, 0] ++ toLE 8 seq ++ toLE 4 (managed up).rack ++ args ++ List.replicate (44 - args.length) 0
  head ++ hmac256 (List.replicate 32 5) head ++ data
theorem wit_Datagrams_bad : up.datagram (datagramOf 1 5 [] []) 1 ∧ up.macOk (datagramOf 1 5 [] []) = false := by decide +kernel
theorem wit_Datagrams_stale : (managed up).macOk (datagramOf 3 0 [] []) = true ∧ Mg.seq (datagramOf 3 0 [] []) ≤ (managed up).board.lastSeq := by decide +kernel
theorem wit_Datagrams_short : up.answers = true ∧ Mg.op (List.replicate 95 0) = 0 ∧ (List.replicate 95 (0 : Byte)).length < 96 := by decide
theorem wit_Managers_cap : (managed up).authentic (datagramOf 1 1 [0, 1] []) 1 := by decide +kernel
theorem wit_Managers_on : (managed (withFlds (inState 1) [(Pg.pwr, F.pwrGlobalStatusHoldupReady, 1)])).authentic (datagramOf 2 1 [] []) 2 := by decide +kernel
theorem wit_Managers_off : (managed up).authentic (datagramOf 3 1 [] []) 3 := by decide +kernel
theorem wit_Managers_reset : (managed up).authentic (datagramOf 4 1 [] []) 4 := by decide +kernel
theorem wit_Managers_owner : (managed up).authentic (datagramOf 5 1 [2] []) 5 ∧ Mg.arg (datagramOf 5 1 [2] []) 0 1 ≤ 2 := by decide +kernel
theorem wit_Managers_subscribe : (managed up).authentic (datagramOf 8 1 [1] []) 8 := by decide +kernel
theorem wit_Managers_unknown : (managed up).authentic (datagramOf 255 1 [] []) 255 := by decide +kernel
theorem wit_Managers_flush : (managed (withFlds up [(Pg.pwr, F.pwrGlobalStatusFlushing, 1)])).authentic (datagramOf 1 1 [] []) 1 := by decide +kernel
theorem wit_ManagersRead_reg :
    let d := datagramOf 6 1 [0x10, 0, 0xC0, 0x0F, 16] []
    (managed up).authentic d 6 ∧ Mg.arg d 4 1 = 16 ∧ Mg.arg d 2 2 + 4 * 16 = 4096 ∧ Mg.arg d 0 2 < 1024 ∧
      ∀ i < 16, (managed up).volatile (Mg.arg d 0 2) (Mg.arg d 2 2 + 4 * i) = false := by decide +kernel
theorem wit_ManagersRead_mem :
    let d := datagramOf 7 1 (toLE 8 0xFFF0001000000000 ++ toLE 2 1024) []
    let s := managed reach
    s.authentic d 7 ∧ s.memStates = true ∧ Mg.arg d 8 2 = 1024 ∧ s.isOwnRack (Mg.arg d 0 8) = true ∧
      s.readable (Mg.arg d 0 8 % 2 ^ 52) 1024 = true ∧ s.rangeOn (Mg.arg d 0 8 % 2 ^ 52) 1024 = true := by decide +kernel
theorem wit_ManagersRead_remote :
    let d := datagramOf 9 1 (toLE 8 0xFFF0001000000000 ++ toLE 2 256 ++ [1]) (List.replicate 256 7)
    let s := withFlds (managed reach) [(Pg.tel, F.telControlRackAccessEn, 1)]
    s.authentic d 9 ∧ s.memStates = true ∧ s.board.flag Pg.tel F.telControlRackAccessEn = true ∧ Mg.arg d 10 1 = 1 ∧ Mg.arg d 8 2 = 256 ∧
      s.writablePages (Mg.arg d 0 8 % 2 ^ 52) 256 = true ∧ s.rangeOn (Mg.arg d 0 8 % 2 ^ 52) 256 = true := by decide +kernel
theorem wit_Gate : up.answers = true ∧ up.board.owner ≠ some (linkIdx .b) ∧ freeTarget 0 0x20 = false ∧ up.present Pg.mod = true ∧
    up.mayWrite .a Pg.mod ∧ wordSort (pageKindOf Pg.mod) 0 = .readOnly ∧ wordSort (pageKindOf 0x3FF) 0xFFC = .reserved ∧ pageKindOf 0x3FF = .reserved ∧
    State.reset.present (Pg.hb 0) = true ∧ (inState 1).answers = true := by decide +kernel
theorem wit_Gate_unpowered :
    let s := withFlds State.reset [(Pg.tel, F.telStatusOwner, 1)]
    s.answers = true ∧ s.present Pg.clk = true ∧ s.board.owner = some (linkIdx .a) ∧ s.powered Pg.clk = false := by decide +kernel
theorem wit_Gate_absent : ({ up with store := { Store.reset with variant := 2 } } : State).present (Pg.core 95) = false ∨
    ∃ p < 1024, up.present p = false ∧ pageKindOf p ≠ .reserved := by decide +kernel
theorem wit_Stores : up.mayWrite .a Pg.tel ∧ wordSort (pageKindOf Pg.tel) 0x014 = .writable ∧ isCommand (pageKindOf Pg.tel) 0x014 = false ∧
    0x014 ∉ [evtOff, evtEnOff] ∧ pageKindOf Pg.tel ∉ [.hb, .trc] := by decide +kernel
theorem wit_EventBits : up.answers = true ∧ up.present Pg.clk = true ∧ up.powered Pg.clk = true ∧ up.board.owner = some (linkIdx .a) ∧
    wordSort (pageKindOf Pg.clk) evtOff = .writable := by decide +kernel
theorem wit_Holdoff :
    let s := withFlds up [(Pg.evt, F.evtControlIrqEn, 1)] |>.onBoard (fun b =>
      { ((b.wr Pg.clk evtOff 1).wr Pg.clk evtEnOff 1).msixWr 0 false 12 0 with holding := true, heldBack := true })
    s.board.holding = true ∧ s.board.heldBack = true ∧ s.board.anyPending = true ∧ s.board.owner = some (linkIdx .a) ∧
      (s.board.msixRd 0 false 12).getLsbD 0 = false := by decide +kernel
theorem wit_Reads : up.board.st ≠ St.off ∧ up.aclkStopped = false ∧ isLow (pageKindOf Pg.tk) 0x808 = true ∧ isLow (pageKindOf Pg.tk) 0x80C = false ∧
    isLow (pageKindOf Pg.tk) 0x100 = false ∧ up.volatile Pg.tk 0x100 = false := by decide +kernel
theorem wit_PeriodAndSplit : (inState 7).mayWrite .a Pg.tk ∧ (inState 7).rwbState = true ∧ up.rwbState = false ∧ up.mayWrite .a Pg.tk ∧
    163840 % 1024 = 0 ∧ (inState 7).mayWrite .a Pg.fabSpine ∧ 1 + 14 + 1 = 16 := by decide +kernel
theorem wit_Keys : up.mayWrite .a Pg.lic ∧ (managed up).store.keys.length = 8 ∧ up.store.oldKeys.length = 2 ∧ up.mgmt.keyWords.length < 8 ∧
    up.shelfBusy = false := by decide +kernel
theorem wit_Telemetry : (withFlds up [(Pg.tk, F.tkStatusRunning, 1)]).gridRuns = true ∧
    (withFlds { up with mgmt := { up.mgmt with sinceFrame := 64 } } [(Pg.tk, F.tkStatusRunning, 1)]).board.fld Pg.tel F.telFrameCfgDecimate ≤ 64 := by decide +kernel
theorem wit_Telemetry_room :
    let s := withFlds reach [(Pg.tk, F.tkStatusRunning, 1), (Pg.tel, F.telControlFrameEn, 1), (Pg.tel, F.telRingBaseHiAddr, 16), (Pg.tel, F.telFrameCfgRingLog2, 5)]
    s.board.flag Pg.tel F.telControlFrameEn = true ∧ idxSub 0 (s.board.fld Pg.tel F.telRingIndexRi) ≠ 2 ^ 5 ∧
      s.writablePages (2 ^ 32 * s.board.fld Pg.tel F.telRingBaseHiAddr) (512 * 2 ^ 5) = true := by decide +kernel

/-! ### Memory -/

/-- A module whose memory commands name context 0's slice of 16 pages from page 32,768, with the given arguments. -/
def asked (a1 a2 a3 : Nat) : State :=
  withFlds up [(Pg.mem, F.memCmdArgArg 1, a1), (Pg.mem, F.memCmdArgArg 2, a2), (Pg.mem, F.memCmdArgArg 3, a3),
    (Pg.opq 1, F.opqCtxSliceBaseBase 0, 32768), (Pg.opq 1, F.opqCtxSlicePagesPages 0, 16), (Pg.mem, F.memFramesT0FreeFrames, 18176)]
theorem wit_MemRefused : up.memReady .a ∧ (asked 1 1 0).cmdInSlice 0 1 1 = false ∧ up.cstate 0 ∉ [Cs.ready, Cs.running, Cs.stalled] ∧
    (asked 32768 0 0).cmdInSlice 0 32768 0 = true ∧ ({ up with store := { Store.reset with variant := 1 } } : State).shelfLocked = true := by decide +kernel
theorem wit_MemRefused_full :
    let s := withFlds (asked 32768 16 0) [(Pg.mem, F.memFramesT0FreeFrames, 15)]
    s.memReady .a ∧ s.cmdInSlice 0 32768 16 = true ∧ (cmdPages (s.memCmd 1)).any (fun p => (s.tier.entry p).valid) = false ∧
      s.board.fld Pg.mem F.memFramesT0FreeFrames < (s.memCmd 1).a2 ∧ (cmdPages (s.memCmd 2)).all (fun p => (s.tier.entry p).valid) = false := by decide +kernel
theorem wit_MemRefused_mapped : (cmdPages ⟨4, 0, 32768, 1, 0⟩).any (fun p => (reach.tier.entry p).valid) = true ∧
    2 ^ 28 < (2 ^ 28 - 1) % 2 ^ 28 + 2 := by decide +kernel
theorem wit_MemRefused_seal : (reach.tier.entry 32768).valid = true ∧ (reach.tier.entry 32768).sealed = false ∧ 16 ≤ (List.replicate 16 (⟨1, 0, 0, 0, 0⟩ : MemCmd)).length := by
  decide +kernel
theorem wit_MemMaps : (asked 32768 16 0).memReady .a ∧ (asked 32768 16 0).cmdInSlice 0 32768 16 = true ∧
    (cmdPages ((asked 32768 16 0).memCmd 1)).any (fun p => ((asked 32768 16 0).tier.entry p).valid) = false ∧
    ((asked 32768 16 0).memCmd 1).a2 ≤ (asked 32768 16 0).board.fld Pg.mem F.memFramesT0FreeFrames ∧ 0 % 2 ^ 28 + 16 ≤ 2 ^ 28 := by decide +kernel
theorem wit_MemMaps_free : (cmdPages ⟨2, 0, 32768, 1, 0⟩).all (fun p => (reach.tier.entry p).valid) = true := by decide +kernel
/-- A sealed page whose home is shelf page 5, in slice frame 256. -/
def sealedPage : PageEntry := { PageEntry.none with valid := true, sealed := true, homeValid := true, frame := 256, homeTier := 2, object := 1, homeFrame := 5 }
/-- A memory command runs. -/
def running (m : MemCmd) (fs : List Nat) : State := { up with tier := { Tier.reset with cmdRun := some m, cmdFrames := fs } }
theorem wit_MemMaps_done : (running ⟨1, 0, 32768, 1, 0⟩ [256]).tier.cmdRun = some ⟨1, 0, 32768, 1, 0⟩ ∧ (running ⟨1, 0, 32768, 1, 0⟩ [256]).tier.cmdQ = [] ∧
    (running ⟨1, 0, 32768, 1, 0⟩ [256]).tier.cmdFrames.length = 1 ∧ (State.reset.tier.entry 32768).valid = false := by decide +kernel
/-- A hood of one object of one page, with identifier 7. -/
def smallHood : Hood := ⟨toLE 4 0x484F4F44 ++ [1, 0, 0, 0] ++ toLE 8 7 ++ toLE 8 1 ++ toLE 4 1 ++ toLE 4 0 ++ toLE 4 0 ++ toLE 4 1, 0⟩
theorem wit_Hoods_load :
    let s : State := withFlds { asked 32768 7 0 with tier := { Tier.reset with hoods := [smallHood] } } [(Pg.mod, F.modStatusFeatures, 3), (Pg.opq 1, F.opqCtxStateState 0, Cs.ready)]
    s.memReady .a ∧ s.hoodOf (s.memCmd 3).hoodId = some smallHood ∧ s.cstate 0 = Cs.ready ∧ s.cmdInSlice 0 32768 smallHood.chunks = true ∧
      s.shelfLocked = false ∧ s.hoodOf (s.memCmd 6).hoodId = some smallHood := by decide +kernel
theorem wit_Hoods_complete :
    let s : State := withFlds { up with tier := { Tier.reset with loads := [⟨0, 3, smallHood, 32768⟩] } } [(Pg.opq 1, F.opqCtxStateState 0, Cs.loading)]
    s.tier.loads = [⟨0, 3, smallHood, 32768⟩] ∧ s.cstate 0 = Cs.loading ∧ smallHood.placement 1 = [(1, 0)] ∧ s.freeFrame 0 = some 256 := by decide +kernel
theorem wit_Hoods_install :
    let s : State := withFlds { asked 32768 0 0 with tier := { Tier.reset with map := [(32768, sealedPage)] } } [(Pg.mod, F.modStatusFeatures, 3)]
    s.memReady .a ∧ s.shelfLocked = false ∧ (s.tier.entry 32768).valid = true ∧ (s.tier.entry 32768).sealed = true := by decide +kernel
theorem wit_Landed :
    let s : State := { up with tier := { Tier.reset with map := [(32768, sealedPage)], fly := [⟨32768, 0, 257, true⟩] } }
    s.tier.migQ = [] ∧ s.tier.fly = [⟨32768, 0, 257, true⟩] := by decide +kernel
theorem wit_MemErrors :
    let s : State := { up with tier := { Tier.reset with map := [(32768, sealedPage)] } }
    s.powered (Pg.slc 23) = true ∧ s.frameAt false 179 227 = some 256 ∧ s.pageAt 0 256 = some 32768 ∧
      Tbl.get (fun _ => 0) s.tier.ueCount 256 = 0 ∧ s.tier.fly = [] := by decide +kernel
theorem wit_MemErrors_lost : reach.frameAt false 179 227 = some 256 ∧ reach.pageAt 0 256 = some 32768 ∧
    ((reach.tier.entry 32768).sealed && (reach.tier.entry 32768).homeValid) = false := by decide +kernel
theorem wit_MemErrors_down : up.powered (Pg.drm 95) = true ∧ (liveList up.bup.merged).contains 3071 = true ∧
    (up.board.fld (Pg.drm 95) F.drmChanDownMask).testBit 31 = false := by decide +kernel
theorem wit_Pounce : (withFlds up [(Pg.tk, F.tkStatusRunning, 1)]).gridRuns = true ∧ up.powered Pg.shf = true ∧ up.powered (Pg.slc 23) = true := by decide +kernel

/-! ### Contexts and operators -/

/-- A tensor slot at an address, of a format and a shape of one batch. -/
def slotOf (addr fmt rows cols : Nat) : Bytes := toLE 16 (addr / 64 + fmt * 2 ^ 46 + rows * 2 ^ 70 + cols * 2 ^ 94)
/-- A descriptor: LEVEL, OPCODE, SUBOP, slots, PARAM0. -/
def descOf (level op sub : Nat) (slots : List Bytes) (p0 : Nat) : Bytes :=
  let sl := slots.flatten
  toLE 4 (level + 2 ^ 8 * op + 2 ^ 16 * sub + 2 ^ 24 * slots.length) ++ toLE 12 0 ++ toLE 12 0 ++ toLE 4 0x3F800000 ++
    (sl ++ List.replicate (80 - sl.length) 0) ++ toLE 4 p0 ++ toLE 12 0
/-- Context 0 running on core 0 with one descriptor fetched, its working store region the first MiB of the window. -/
def queued (raw : Bytes) : State :=
  { withFlds up [(ctxPage 0, F.opqCtxStateState 0, 3), (ctxPage 0, F.opqCtxCfgLevelPin 0, 3), (Pg.opq0, F.opq0PartCoresLoCores 0, 1),
      (ctxPage 0, F.opqCtxWsSizeMib 0, 1), (ctxPage 0, F.opqCtxSbaseLoScaleLog2 0, 1)] with mem := [(16388, 1)], ctxs := [(0, { Ctx.init with actPi := 1, fetched := [(0, raw)] })] }
/-- One small descriptor for each operator, in the order of `opCommands`. -/
def smallOps : List Bytes :=
  let f := fun (i : Nat) => slotOf (4096 * (i + 1)) 0 1 1
  let n := fun (i : Nat) => slotOf (4096 * (i + 1)) 10 1 1
  let m := fun (i : Nat) => toLE 16 ((4096 * (i + 1)) / 64 + 4 * 2 ^ 46 + 2 ^ 58 + 2 ^ 70 + 2 ^ 94)
  [descOf 1 0x10 0 [f 0, f 1, f 2] 0, descOf 2 0x10 1 [f 0, f 1, f 2, slotOf 16384 10 1 2] 0, descOf 2 0x11 0 [f 0, f 1, f 2, f 3] 0,
   descOf 1 0x20 0 [f 0, f 1, f 2] 0, descOf 1 0x21 0 [f 0, f 1, f 2] 0, descOf 1 0x22 0 [f 0, f 1] 0, descOf 1 0x23 0 [f 0, f 1] 0,
   descOf 1 0x30 0 [f 0, n 1, f 2] 0, descOf 1 0x31 0 [f 0, n 1, f 2] 0, descOf 2 0x40 1 [f 0, n 1, slotOf 12288 10 1 2, f 3, n 4] 1,
   descOf 2 0x41 0 [f 0, n 1, f 2, f 3] 0, descOf 1 0x50 0 [f 0, m 1] 0, descOf 1 0x51 0 [m 0, f 1] 0,
   descOf 1 0x52 0 [f 0, f 1] 0, descOf 1 0x52 1 [f 0, f 1] 0, descOf 2 0x60 0 [f 0, n 1] 0]
theorem wit_OperatorsStart : ∀ p ∈ smallOps.zip (opCommands 0),
    (queued p.1).mayStart p.2.2 0 p.1 ∧ ((queued p.1).validate 0 p.2.2 (Desc.ofBytes p.1)).1 = 0 ∧ (queued p.1).wbufHit 0 (Desc.ofBytes p.1) = none ∧
      (queued p.1).sparseBad 0 (Desc.ofBytes p.1) = none ∧ (p.2.2.run (queued p.1) 0 (Desc.ofBytes p.1)).cause = 0 ∧ ((queued p.1).ctx 0).ops = [] := by
  decide +kernel
theorem wit_OperatorsStart_refused :
    let raw := descOf 0 0x10 0 [] 0
    (queued raw).mayStart gemmDef 0 raw ∧ (queued raw).validate 0 gemmDef (Desc.ofBytes raw) = (Cause.level, 7) ∧ ((queued raw).ctx 0).ops = [] := by decide +kernel
/-- A sparse weight whose metadata breaks its rule, and an operand in the fill half of the weight buffer. -/
theorem wit_OperatorsStart_sparse :
    let raw := descOf 2 0x10 0 [toLE 16 (4096 / 64 + 4 * 2 ^ 46 + 2 ^ 58 + 2 ^ 70 + 2 ^ 94), toLE 16 (8192 / 64 + 4 * 2 ^ 46 + 2 ^ 50 + 2 ^ 58 + 2 ^ 70 + 2 ^ 94), slotOf 12288 0 1 1] 0
    (queued raw).sparseBad 0 (Desc.ofBytes raw) = some (Cause.sparseIndex, 1) ∧ (queued raw).mayStart gemmDef 0 raw ∧
      ((queued raw).validate 0 gemmDef (Desc.ofBytes raw)).1 = 0 ∧ (queued raw).wbufHit 0 (Desc.ofBytes raw) = none := by decide +kernel
theorem wit_OperatorsStart_wbuf :
    let s := withFlds (queued (descOf 1 0x10 0 [slotOf 4096 0 1 1, slotOf 8192 0 1 1, slotOf 12288 0 1 1] 0)) [(Pg.core 0, F.coreWbufHalfMib, 1), (Pg.core 0, F.coreWbufStateComputeHalf, 1)]
    s.wbufHit 0 (Desc.ofBytes (descOf 1 0x10 0 [slotOf 4096 0 1 1, slotOf 8192 0 1 1, slotOf 12288 0 1 1] 0)) = some 0 := by decide +kernel
/-- One descriptor for each operator that completes at once, in the order of `quickCommands`. -/
def quickOps : List Bytes :=
  [descOf 1 1 0 [] 0, descOf 1 2 0 [] 7] ++ (List.range 3).map (fun i => descOf 3 0x80 i [slotOf (32768 * 2 ^ 21) 0 1 (2 ^ 21)] 0)
/-- A page of context 0's slice, mapped and WRITABLE. -/
def paged (raw : Bytes) : State :=
  let s := withFlds (queued raw) [(ctxPage 0, F.opqCtxSliceBaseBase 0, 32768), (ctxPage 0, F.opqCtxSlicePagesPages 0, 1)]
  { s with tier := s.tier.setEntry 32768 { PageEntry.none with valid := true, writable := true, frame := 256 } }
theorem wit_QuickOperators : ∀ p ∈ quickOps.zip (quickCommands 0),
    (paged p.1).mayStart p.2.2 0 p.1 ∧ ((paged p.1).validate 0 p.2.2 (Desc.ofBytes p.1)).1 = 0 ∧ ((paged p.1).feed ((paged p.1).partOf 0)).cur = none ∧
      ((paged p.1).ctx 0).ops = [] := by decide +kernel
/-- An operator of context 0 in flight, with one byte to write. -/
def flying : OpRun :=
  { qindex := 0, desc := descOf 1 0x10 0 [] 0, record := Rec.blank, complete := false, tensors := [⟨4096, 4097⟩], outputs := [⟨4096, 4097⟩], outW := [(4096, [7])], mark := false }
def inflight : State := { queued [] with ctxs := [(0, { Ctx.init with ops := [flying] })] }
theorem wit_OperatorsComplete : (inflight.ctx 0).ops = [flying] ∧ (inflight.ctx 0).owed = [] ∧ inflight.ringRoom 0 = true ∧ flying.complete = false ∧
    flying.mark = false ∧ (Desc.ofBytes flying.desc).opcode ∉ [0x70, 0x71, 0x72] ∧ flying.record.type = 1 := by decide +kernel
theorem wit_Doorbells : up.present Pg.opq0 = true ∧ up.mayWrite .a Pg.opq0 ∧ up.cstate 255 = Cs.free ∧ inflight.mayWrite .a Pg.opq0 ∧ inflight.cstate 0 ≠ Cs.free ∧
    inflight.cstate 0 ≠ Cs.error ∧ inflight.pi 0 = 0 ∧ idxSub 1 ((queued []).oldest 0) ≤ (queued []).qsize 0 ∧ (queued []).qsize 0 < idxSub 33 ((queued []).oldest 0) ∧
    (queued []).ringRoom 0 = true ∧ ((queued []).ctx 0).ops = [] ∧ up.board.owner ≠ some (linkIdx .b) ∧ (queued []).ci 0 ≠ ((queued []).ctx 0).actPi := by decide +kernel
theorem wit_Contexts : up.mayWrite .a (ctxPage 255) ∧ up.cstate 255 = Cs.free ∧ up.enableOk 255 = false ∧ inflight.cstate 0 ≠ Cs.free ∧ inflight.cstate 0 ≠ Cs.loading ∧
    (withFlds up [(ctxPage 0, F.opqCtxStateState 0, 1)]).cstate 0 = Cs.loading := by decide +kernel
theorem wit_Contexts_enable :
    (withFlds (paged []) [(ctxPage 0, F.opqCtxStateState 0, 0)]).enableOk 0 = true := by decide +kernel

/-! ### Cores and the fabric -/

/-- Core 5 of the module as `x`. -/
def withCore (x : Core) : State := { up with cores := [(5, x)] }
theorem wit_CoreFaults : up.coreEnabled 95 = true ∧ up.store.logCount + 1 < logMax ∧ up.holdsTop = false ∧ up.isCrown = false ∧ 3 ≤ 2 + 1 ∧
    ∀ e < 48, up.engUp e = false := by decide +kernel
theorem wit_CoreFaults_crown :
    let s := withFlds up [(Pg.opq0, F.opq0PartCoresLoCores 0, 1), (Pg.opq0, F.opq0PartCtrlRunValid 0, 1), (Pg.role, F.roleStatusRole, 2), (Pg.tk, F.tkStatusRunning, 1)]
    (s.partOfCore 0).bind s.runningCtx = some 0 ∧ s.holdsTop = true ∧ s.gridRuns = true ∧ s.crown.aborts = [] := by decide +kernel
theorem wit_CoreFaults_strand : inflight.coreEnabled 0 = true ∧ (inflight.ctx 0).ops = [flying] ∧ (inflight.ctx 0).owed = [] ∧ inflight.ringRoom 0 = true ∧
    flying.complete = false ∧ inflight.store.logCount + 1 < logMax := by decide +kernel
theorem wit_Tasks :
    let s := withCore { Core.init with task := some (0, 0, 0), overran := some 100 }
    s.coreEnabled 5 = true ∧ (s.core 5).task = some (0, 0, 0) ∧ (s.core 5).doneAt = none ∧ (s.core 5).overran = some 100 := by decide +kernel
theorem wit_Tasks_slow :
    let s := withCore { Core.init with slowRun := 255 }
    s.board.flag (Pg.core 5) F.coreStatusSlow = false ∧ s.board.fld Pg.tk F.tkSlowCfgCount ≤ (s.core 5).slowRun := by decide +kernel
theorem wit_Tasks_fast :
    let s := withFlds (withCore { Core.init with fastRun := 255 }) [(Pg.core 5, F.coreStatusSlow, 1)]
    s.board.flag (Pg.core 5) F.coreStatusSlow = true ∧ s.board.fld Pg.tk F.tkSlowCfgCount ≤ (s.core 5).fastRun := by decide +kernel
/-- The accumulator of core 5 in use; key 0 hashes to slot 0. -/
def adding (t : List (Nat × Option (Nat × Word))) : State := withFlds (withCore { Core.init with hacc := t }) [(Pg.spx 5, F.spxStatusHaccMode, 1)]
theorem wit_Accumulators : (adding []).coreEnabled 5 = true ∧ (adding []).board.fld (Pg.spx 5) F.spxStatusHaccMode ≠ 0 ∧ (0 : Word).toNat * 0x9E3779B1 % 2 ^ 32 / 2 ^ 16 = 0 ∧
    Tbl.get (fun _ => (none : Option (Nat × Word))) ((adding []).core 5).hacc 0 = none := by decide +kernel
theorem wit_Accumulators_full :
    let s := adding ((List.range 8).map (fun i => (i, some (9, 0))))
    (∀ j < 8, ∃ e, Tbl.get (fun _ => (none : Option (Nat × Word))) (s.core 5).hacc j = some e ∧ e.1 ≠ 0) ∧ s.board.fld (Pg.spx 5) F.spxSpillUsedRecords < spillMax ∧
      spillMax ≤ (withFlds s [(Pg.spx 5, F.spxSpillUsedRecords, spillMax)]).board.fld (Pg.spx 5) F.spxSpillUsedRecords := by
  refine ⟨?_, by decide +kernel, by decide +kernel⟩
  intro j hj
  refine ⟨(9, 0), ?_, by decide⟩
  revert j; decide +kernel
theorem wit_FabricReads : up.coreEnabled 5 = true ∧ readLegal 4096 4096 = true ∧ up.tierOf 4096 ≠ 3 ∧ readLegal 64 4096 = false ∧ up.entryFree 5 false = true ∧
    up.blockedRead 5 ⟨0, 4096, 4096, 0, false, false⟩ = false ∧ portOk 0x460 = true ∧ portOk 0x461 = false ∧ up.writeOk (96 * 2 ^ 27 - 256) 256 = true ∧
    (up.core 5).reads.find? (fun q => q.tag == 2560) = none ∧ up.fab.tags.contains 0xC000 = false ∧ (∀ w ∈ up.fab.writes, w.1 ≠ 5) := by decide +kernel
theorem wit_FabricReads_full :
    let s := withCore { Core.init with reads := (List.range 496).map (fun i => ⟨2560 + i, 0, 64, 0, false, false⟩) }
    s.entryFree 5 false = false := by decide +kernel
theorem wit_FabricReads_answer :
    let r : SeRead := ⟨2560, 0, 2048, 0, false, false⟩
    let s := withCore { Core.init with reads := [r] }
    2560 < 0xC000 ∧ (s.core (2560 / 512)).reads.find? (fun q => q.tag == 2560) = some r ∧ (s.core (2560 / 512)).waiting = [] ∧
      s.board.fld Pg.fabSpine F.fabSpineLatBoundCycles < 251 := by decide +kernel
theorem wit_FabricReads_fill :
    let s := withFlds up [(Pg.core 0, F.coreWbufHalfMib, 1)]
    s.writeOk 0 256 = true ∧ s.inComputeHalf 0 0 256 = true := by decide +kernel
theorem wit_Links : up.board.fld Pg.fabSpine F.fabSpineHotCfgCycles ≤ 2048 ∧ 2047 < up.board.fld Pg.fabSpine F.fabSpineHotCfgCycles ∧
    up.board.fld (Pg.slc 23) F.slcHotCfgCycles ≤ 65535 ∧ 0 < up.board.fld (Pg.slc 23) F.slcHotCfgCycles ∧ up.store.logCount + 1 < logMax ∧
    up.fab.linkHeld.contains 0 = false := by decide +kernel
theorem wit_Links_third :
    let s := { up with fab := { up.fab with linkFails := [(32, 2)] } }
    3 ≤ Tbl.get (fun _ => 0) s.fab.linkFails (1 * 32 + 0) + 1 ∧ s.board.st = St.service := by decide +kernel

/-! ### The layer feed -/

/-- A stream plan of one layer with one entry, at the start of page 32768: a shard of one row of 16 FP32 elements for the core of rank 0, carded in tile 3. -/
def planBytes (target : Nat) : Bytes :=
  toLE 4 0x504C414E ++ [1, 0, 0, 0] ++ toLE 4 1 ++ toLE 4 1 ++ toLE 4 0 ++ toLE 4 1 ++ toLE 4 3 ++ toLE 4 2 ++ List.replicate 32 0 ++
    toLE 32 (7 + 5 * 2 ^ 48 + target * 2 ^ 64 + 3 * 2 ^ 66 + 1 * 2 ^ 128 + 16 * 2 ^ 160) ++ List.replicate 32 0 ++ toLE 4 0 ++ toLE 4 1 ++ List.replicate 56 0 ++
    [2] ++ List.replicate 31 0 ++ [0, 1] ++ List.replicate 30 0
/-- Context 0 streams on cores 0 and 1, its plan sealed in memory. -/
def planned (target : Nat) : State :=
  let s := withFlds (paged []) [(Pg.opq0, F.opq0PartCoresLoCores 0, 3), (ctxPage 0, F.opqCtxCfgStreamer 0, 1), (Pg.core 0, F.coreWbufHalfMib, 1), (Pg.core 1, F.coreWbufHalfMib, 1),
    (Pg.crdGlobal, F.crdGlobalPlanBaseHiAddr 0, 16)]
  { s with mem := memWrite [] (32768 * 2 ^ 21) (planBytes target), tier := s.tier.setEntry 32768 { PageEntry.none with valid := true, sealed := true, frame := 256, object := 1 } }
theorem wit_Plans : (planned 0).mayWrite .a Pg.crdGlobal ∧ (planned 0).planOk 0 ((planned 0).readPlan ((planned 0).planBase 0)) = true ∧
    up.mayWrite .a Pg.crdGlobal ∧ up.planOk 15 (up.readPlan (up.planBase 15)) = false ∧ (∀ b ∈ (up.feed 15).batts, b.dead = false ∨ b.phase ≠ .absent) ∧
    (up.feed (up.partOf (leAt [] 1 1))).fill = none := by decide +kernel
/-- The same with the plan current and its one batt as given. -/
def feeding (target : Nat) (b : BattSt) : State :=
  let s := planned target
  { s with feeds := [(0, { Feed.init with cur := some (s.readPlan (32768 * 2 ^ 21)), batts := [b] })] }
def late0 : BattSt := { BattSt.fresh 0 with late := 2 }
def dead0 : BattSt := { BattSt.fresh 0 with dead := true, sinceFail := some 8, cause := 2 }
theorem wit_Retries : ((feeding 0 late0).feed 0).fill ≠ none ∧ ((feeding 0 late0).feed 0).batt 0 = some late0 ∧
    ((planned 0).readPlan (32768 * 2 ^ 21)).missTicks ≤ late0.late ∧ ((feeding 0 dead0).feed 0).batt 0 = some dead0 ∧ dead0.requests < 255 ∧ (feeding 0 dead0).inService = true ∧
    ((planned 0).readPlan (32768 * 2 ^ 21)).deadline ≤ ({ dead0 with dead := false } : BattSt).sinceFail.getD 0 := by decide +kernel
theorem wit_Retries_nak :
    let s := feeding 0 (BattSt.fresh 0)
    let body := battBody 3 0 0 1 0 0 5 7 9
    s.partOf (leAt body 1 1) = 0 ∧ leAt body 1 1 = ((planned 0).readPlan (32768 * 2 ^ 21)).ctx ∧
    (s.feed 0).batts.find? (fun b => (s.entryOf ((planned 0).readPlan (32768 * 2 ^ 21)) b.idx).id == leAt body 12 4 &&
      (s.entryOf ((planned 0).readPlan (32768 * 2 ^ 21)) b.idx).shard == leAt body 10 2) = some (BattSt.fresh 0) ∧
    leAt body 4 4 = (s.feed 0).fillStep ∧ leAt body 8 2 = (s.feed 0).fillLayer ∧ leAt body 2 1 = 0 := by decide +kernel
/-- A batt for that entry with its payload of 64 bytes, under a LEVEL and with a payload check. -/
def battHeader (level : Nat) (crc : Nat) (out : Nat) : Bytes :=
  let h := toLE 4 0x42415454 ++ toLE 4 level ++ toLE 4 7 ++ toLE 4 (5 * 2 ^ 16) ++ toLE 4 0 ++ toLE 4 0 ++ toLE 4 0 ++ toLE 4 64 ++ toLE 4 out ++ toLE 4 0 ++ toLE 8 crc ++ List.replicate 14 0
  h ++ toLE 2 (crc16 h)
def pay64 : Bytes := List.replicate 64 1
theorem wit_Batts : headerOk (battHeader 1 (crc64 pay64) 64) = true ∧ 64 ≤ (battHeader 1 (crc64 pay64) 64).length ∧ headerOk (List.replicate 64 0) = false ∧
    (inState 1).inService = false ∧ up.battEntry (BattHdr.ofBytes (battHeader 1 (crc64 pay64) 64)) = none := by decide +kernel
theorem wit_Batts_checks :
    let s := feeding 0 (BattSt.fresh 0)
    let pl := s.readPlan (32768 * 2 ^ 21)
    let e := s.entryOf pl 0
    let good := BattHdr.ofBytes (battHeader 1 (crc64 pay64) 64)
    s.battEntry good = some (0, pl, e) ∧ good.step = (s.feed 0).fillStep ∧ good.layer = (s.feed 0).fillLayer ∧ (s.feed 0).batt good.index = some (BattSt.fresh 0) ∧
      convertOk good e.rows e.cols = true ∧ s.targetOk 0 pl good e = true ∧ convertOk (BattHdr.ofBytes (battHeader 1 0 128)) e.rows e.cols = false ∧
      pl.level < (BattHdr.ofBytes (battHeader 2 0 64)).level ∧ s.battBase 0 pl e = some (2 ^ 20) ∧
      s.headCore 0 pl e = some 0 := by decide +kernel
/-- What the payload checks answer: none for a payload that passes, else whether it is malformed. -/
def verdict (h : BattHdr) (pay : Bytes) : Option Bool := match cardPayload h 1 16 pay with | .error b => some b | .ok _ => none
theorem wit_Batts_payload :
    let h := BattHdr.ofBytes (battHeader 1 (crc64 pay64) 64)
    verdict h pay64 = none ∧ verdict h [] = some false ∧ verdict { h with codec := 1 } pay64 = some true := by decide +kernel
theorem wit_Batts_chain :
    let b := { BattSt.fresh 0 with phase := BattPhase.forwarding 0, hdr := battHeader 1 0 64 }
    let s := feeding 1 b
    let pl := s.readPlan (32768 * 2 ^ 21)
    let e := s.entryOf pl 0
    (s.feed 0).batt 0 = some b ∧ s.chainCore 0 pl e 0 = some 0 ∧ s.chainCore 0 pl e 1 = some 1 ∧ e.target = 1 ∧ 1024 * 0 < (BattHdr.ofBytes b.hdr).out ∧
      s.inComputeHalf 1 (s.fillHalf 1 + 64 * e.dest) 64 = false := by decide +kernel
/-- Context 0 waits at a layer mark. -/
def marked (b : BattSt) (arrived : List Nat) : State :=
  let s := feeding 0 b
  { s with ctxs := [(0, { Ctx.init with ops := [{ flying with mark := true }] })]
           feeds := [(0, { s.feed 0 with mark := some 0, arrived := arrived })] }
theorem wit_Barriers : (marked { BattSt.fresh 0 with phase := .committed } []).partOfCore 1 = some 0 ∧
    (marked { BattSt.fresh 0 with phase := .committed } []).atMark 0 = true ∧ ((marked (BattSt.fresh 0) []).feed 0).invalid = false ∧
    (marked { BattSt.fresh 0 with phase := .committed } []).scoreboard 0 0 = true ∧ (marked (BattSt.fresh 0) []).scoreboard 0 0 = false ∧
    (marked (BattSt.fresh 0) [0, 1]).partCores 0 = [0, 1] ∧ ((marked (BattSt.fresh 0) [0, 1]).partCores 0).all ((marked (BattSt.fresh 0) [0, 1]).feed 0).arrived.contains = true := by decide +kernel

/-! ### Fulling -/

/-- Group 0 joins rack 12 and group 1 rack 9, both sessions UP at AL3; tree 5 is enabled with one child on group 0, its parent on group 1, as `x`. -/
def grown (cfg : Word) (x : Tree → Tree) : State :=
  let s := withFlds up [(Pg.hbGlobal, F.hbGlobalGroupCfgRole 0, 2), (Pg.hbGlobal, F.hbGlobalGroupCfgRole 1, 2), (Pg.hbGlobal, F.hbGlobalGroupCfgPeerRack 0, 12),
    (Pg.hbGlobal, F.hbGlobalGroupCfgPeerRack 1, 9), (Pg.nol 0, F.nolStatusSession, 2), (Pg.nol 1, F.nolStatusSession, 2), (Pg.nol 0, F.nolStatusLevel, 3),
    (Pg.nol 1, F.nolStatusLevel, 3), (Pg.hb 0, F.hbStatusEngState, 3), (Pg.hb 4, F.hbStatusEngState, 3)]
  { s with trees := [(5, x { Tree.init with applied := [cfg, 0x10009, 1024, 12, 0, 0, 0, 0, 0, 0, 0] })] }
/-- An invocation of 300 elements is open. -/
def opened (x : Tree) : Tree := { x with isOpen := true, seen := true, step := 3, attempt := 0, e := -5, elements := 300 }
def fullOf (kind index : Nat) (rack : Nat) : FullHdr :=
  { kind := kind, tree := 5, attempt := 0, e := -5, step := 3, index := index, elements := 300, width := 0, nonfin := 0, rack := rack, contrib := 1, sat := 2 }
def segBody (k n : Nat) (kind rack : Nat) : Bytes := (fullOf kind k rack).bytes ++ encodeBlock false 24 (List.replicate n 7)
/-- TREE_CFG with one child: KIND 0 below a parent with a local contribution and without, KIND 1 below a parent, KIND 1 at the top. -/
def kind0 : Word := 0x10419
def kind0Relay : Word := 0x10411
def kind1 : Word := 0x1041B
def kind1Top : Word := 0x1041F
theorem wit_Segments : (grown kind0 opened).admits 0 (segBody 0 256 1 12) 1 5 1 ∧ (grown kind0 opened).ofOpen (segBody 0 256 1 12) 5 ∧
    ((grown kind0 opened).tree 5).results = [] ∧ ((grown kind0 opened).tree 5).nseg = 2 ∧ (grown kind0 opened).tWindow 5 = 1024 ∧
    (((grown kind0 opened).tree 5).con 1).segs = [] := by decide +kernel
theorem wit_Segments_block : (segBlock (fullOf 1 0 12) 256 (segBody 0 256 1 12)).isSome = true ∧ segBlock (fullOf 1 0 12) 256 (segBody 0 255 1 12) = none := by decide +kernel
/-- A FULL_REDUCE of 300 elements at 4096 for a tree, in flight in context 0 on core 0, in the step after step 2. -/
def reducing (tree : Nat) : OpRun :=
  { flying with desc := toLE 4 (1 + 2 ^ 8 * 0x70 + 2 ^ 24) ++ toLE 24 0 ++ toLE 4 0x3F800000 ++ slotOf 4096 0 1 300 ++ List.replicate 64 0 ++ toLE 4 (2 ^ 32 - 5) ++ toLE 4 tree ++ toLE 8 0,
                record := { Rec.blank with opcode := 0x70 }, outW := [] }
def contributing (cfg : Word) (x : Tree → Tree) : State :=
  { withFlds (grown cfg x) [(ctxPage 0, F.opqCtxStateState 0, 3), (Pg.opq0, F.opq0PartCoresLoCores 0, 1)] with
    ctxs := [(0, { Ctx.init with ops := [reducing 5], stepped := true, stepNo := 2 })] }
def halfSent (x : Tree) : Tree := { opened x with ops := [(0, 0)], left := [1], released := 0 }
theorem wit_Segments_local :
    let s := contributing kind0 halfSent
    s.tOp 5 = some (0, 0, Desc.ofBytes (reducing 5).desc) ∧ (s.tree 5).ops.head? = some (0, 0) ∧ (s.partCores (s.partOf 0)).contains 0 = true ∧ (s.tree 5).left = [1] ∧
      s.inService = true ∧ s.tOn 5 = true ∧ s.tLocal 5 = true ∧ (s.tree 5).named (s.stepOf 0) (s.attemptOf (s.stepOf 0)) = 1 ∧
      (Desc.ofBytes (reducing 5).desc).exponent = -5 ∧ (Desc.ofBytes (reducing 5).desc).gradElems = 300 ∧ ((s.tree 5).con 0).segs = [] := by decide +kernel
theorem wit_Segments_win : (grown kind0 opened).admits 1 (fullOf 3 200 9).bytes 3 5 0 ∧ (grown kind0 opened).ofOpen (fullOf 3 200 9).bytes 5 := by decide +kernel
theorem wit_Segments_release :
    let s := grown kind0 (fun x => { opened x with up := 1 })
    (s.tree 5).isOpen = true ∧ (s.tree 5).dead = false ∧ s.quiet = false ∧ (s.tree 5).released < (s.tree 5).up ∧ s.tAll 5 = false ∧ s.tTotals 5 = none ∧
      (s.tree 5).released + 1 < (s.tree 5).nseg := by decide +kernel
theorem wit_Trees_checks : (grown kind0 opened).quiet = false ∧ roleTakes ((grown kind0 opened).board.groupRole 0) 3 = true ∧ (grown kind0 opened).sessionUp 0 = true ∧
    (grown kind0 opened).tOn 6 = false ∧ (grown kind0 opened).tSender 5 (fullOf 1 0 13) = none ∧ ((grown kind0 opened).tree 5).named 2 0 = 0 ∧
    ((grown kind0 opened).tree 5).named 3 1 = 2 ∧ (inState 7).quiet = true ∧ roleTakes (up.board.groupRole 0) 3 = false := by decide +kernel
theorem wit_Trees_end :
    let s := grown kind0Relay (fun x => { opened x with released := 2, up := 2 })
    let h := FullHdr.ofBytes (fullOf 2 2 12).bytes
    s.admits 0 (fullOf 2 2 12).bytes 2 5 1 ∧ s.ofOpen (fullOf 2 2 12).bytes 5 ∧ ((s.tree 5).con 1).ended = none ∧ (s.tree 5).nseg ≤ (s.tree 5).released ∧
      s.tAll 5 = false ∧ s.tOp 5 = none ∧ s.tIds 5 = [1] ∧ h.kind = 2 ∧ (s.tree 5).audit = [] := by decide +kernel
/-- Every segment has gone up, so none may go. -/
theorem wit_Trees_stuck (x : Tree) (s : State) (h : s.tree 5 = { opened x with up := 2 }) : ¬ s.mayGo 5 (s.tree 5).up := by
  simp [State.mayGo, h, opened, Tree.nseg, ceilDiv]
theorem wit_Trees_down :
    let s := grown kind1 (fun x => { opened x with up := 2 })
    s.admits 1 (segBody 0 256 4 9) 4 5 0 ∧ s.ofOpen (segBody 0 256 4 9) 5 ∧ (FullHdr.ofBytes (segBody 0 256 4 9)).index = (s.tree 5).down ∧
      (segBlock (FullHdr.ofBytes (segBody 0 256 4 9)) 256 (segBody 0 256 4 9)).isSome = true := by decide +kernel
theorem wit_Trees_downEnd :
    let s := contributing kind1 (fun x => { opened x with up := 2, down := 2, released := 2, endSent := true, ops := [(0, 0)] })
    s.admits 1 (fullOf 5 2 9).bytes 5 5 0 ∧ s.ofOpen (fullOf 5 2 9).bytes 5 ∧ (s.tree 5).nseg ≤ (s.tree 5).released ∧ (s.tree 5).endSent = true ∧
      s.tOp 5 = some (0, 0, Desc.ofBytes (reducing 5).desc) ∧ (s.ctx 0).ops = [reducing 5] ∧ (s.ctx 0).owed = [] ∧ s.ringRoom 0 = true := by decide +kernel
theorem wit_Trees_missing :
    let s := grown kind0 (fun x => { opened x with watch := some (0, 4) })
    (s.tree 5).isOpen = true ∧ s.inService = true ∧ (s.tree 5).watch = some (0, 4) ∧ s.tComplete 5 0 = false ∧ s.tDeadline 5 ≤ 4 ∧ s.holdsTop = false := by decide +kernel
theorem wit_Trees_write : up.mayWrite .a (Pg.ful (5 / 16)) ∧ 0x240 ∈ treeCfgOffs (treeSlot 5) ∧ reservedBits .ful 0x240 (0x10405 : Word).toNat = 0 ∧
    up.board.dropFul (treePage 5) 0 0x240 0x10405 = 0 ∧ up.board.dropFul (treePage 5) 0 0x240 0x10005 ≠ 0 := by decide +kernel
/-- The collectives of a job of one module: FULL_REDUCE for tree 5, BROADCAST from rank 0, ALLGATHER, of one element. -/
def collOps : List Bytes :=
  [descOf 1 0x70 0 [slotOf 4096 0 1 1] 0, toLE 4 (1 + 2 ^ 8 * 0x71 + 2 ^ 24) ++ toLE 24 0 ++ toLE 4 0x3F800000 ++ slotOf 4096 0 1 1 ++ List.replicate 68 0 ++ toLE 4 wholeJob ++ toLE 8 0,
   toLE 4 (2 + 2 ^ 8 * 0x72 + 2 * 2 ^ 24) ++ toLE 24 0 ++ toLE 4 0x3F800000 ++ slotOf 4096 0 1 1 ++ slotOf 8192 0 1 1 ++ List.replicate 52 0 ++ toLE 4 wholeJob ++ toLE 8 0]
theorem wit_Collectives : ∀ p ∈ collOps.zip [fullDef, fun _ => broadcastDef, allgatherDef],
    (queued p.1).mayStart (p.2 (queued p.1)) 0 p.1 ∧ ((queued p.1).validate 0 (p.2 (queued p.1)) (Desc.ofBytes p.1)).1 = 0 ∧ (queued p.1).wbufHit 0 (Desc.ofBytes p.1) = none ∧
      (queued p.1).sparseBad 0 (Desc.ofBytes p.1) = none ∧ ((queued p.1).ctx 0).ops = [] := by decide +kernel
theorem wit_Collectives_complete :
    let s := { queued [] with ctxs := [(0, { Ctx.init with ops := [{ flying with desc := descOf 1 0x71 0 [] 0 }] })] }
    (s.ctx 0).owed = [] ∧ s.ringRoom 0 = true ∧ (Desc.ofBytes (descOf 1 0x71 0 [] 0)).opcode ∈ [0x71, 0x72] ∧
      (Desc.ofBytes (descOf 1 0x71 0 [] 0)).digestEn = false ∧ (Desc.ofBytes (reducing 5).desc).opcode = 0x70 := by decide +kernel
/-- A PEER body for context 0 at the start of page 32768: its format byte, its form, its data. -/
def peerBody (form : Nat) (rest : Bytes) : Bytes := toLE 8 (32768 * 2 ^ 21) ++ toLE 4 (2 ^ 16 * form) ++ rest
def joined : State :=
  let s := grown kind0 id
  { s with tier := { Tier.reset with map := [(32768, { PageEntry.none with valid := true, writable := true, frame := 256 })] } }
theorem wit_Peer : joined.quiet = false ∧ roleTakes (joined.board.groupRole 0) 4 = true ∧ joined.sessionUp 0 = true ∧ 16 ≤ (peerBody 0 [1, 2, 3, 4]).length ∧
    joined.peerOk 0 (32768 * 2 ^ 21) 4 = true ∧ joined.peerOk 0 (32768 * 2 ^ 21) 8 = true ∧ up.peerOk 0 (32768 * 2 ^ 21) 4 = false ∧
    (peerData 32 2 (encodeBlock false 32 [5, 6])).isSome = true ∧ peerData 32 2 [0, 0] = none ∧ joined.consumer 0 0 = none := by decide +kernel
theorem wit_Peer_consumer :
    ({ joined with ctxs := [(0, { Ctx.init with ops := [{ flying with outputs := [⟨32768 * 2 ^ 21, 32768 * 2 ^ 21 + 64⟩] }] })] } : State).consumer 0 (32768 * 2 ^ 21) = some 0 := by
  decide +kernel

/-! ### The hatband -/

/-- Engine 0 of group 0 as `x`, in a state of R308. -/
def engined (v : Nat) (x : Engine) : State :=
  let s := withFlds up [(Pg.hb 0, F.hbStatusEngState, v)]
  { s with net := { s.net with engines := [(0, x)] } }
/-- It runs on lanes 0 to 15 with spares 16 and 17. -/
def lanes : Engine := { Engine.init with txMap := List.range 16, rxMap := List.range 16, txSpare := [16, 17], rxSpare := [16, 17] }
def oneFlit : TxFlit := ⟨1, true, true, 3, [], 0⟩
theorem wit_Engines_up : (engined 2 Engine.init).board.engState 0 = Eng.training ∧ (engined 2 Engine.init).engineUsable 0 = true ∧
    16 ≤ (goodLanes 0x3FFFE ((engined 2 Engine.init).board.fld (Pg.hb 0) F.hbTxBadLanes)).length ∧ (goodLanes 0x7FFF 0).length < 16 ∧
    (engined 2 Engine.init).upEngines 0 = [] ∧ (engined 2 Engine.init).board.session 0 = Ses.none ∧ up.board.engState 0 ≠ Eng.training ∧ up.board.engState 0 ≠ Eng.down := by decide +kernel
theorem wit_Engines_down : (engined 3 lanes).engUp 0 = true ∧ up.engUp 0 = false ∧
    (withFlds (engined 3 lanes) [(Pg.hb 1, F.hbStatusEngState, 3)]).upEngines 0 ≠ [0] := by decide +kernel
theorem wit_Engines_light : up.board.engState 0 = Eng.dark ∧ (engined 3 lanes).board.engState 0 ∈ [Eng.training, Eng.up, Eng.loopback] ∧
    (engined 1 lanes).board.engState 0 = Eng.lightCheck ∧ St.training ≤ up.board.st ∧ (engined 4 lanes).board.engState 0 = Eng.down := by decide +kernel
theorem wit_Engines_lane : (engined 3 lanes).engUp 0 = true ∧ lanes.rxMap.contains 5 = true ∧ lanes.rxRetrain = [] ∧ lanes.rxSpare = [16, 17] ∧ lanes.txSpare.contains 16 = true ∧
    ((engined 3 lanes).engine 0) = lanes ∧ lanes.rxMap.contains 17 = false ∧ (1 : Nat) % 256 ≠ lanes.rxVersion ∧
    (engined 3 lanes).store.logCount + 1 < logMax := by decide +kernel
theorem wit_Engines_retrain :
    let x := { lanes with rxMap := moveLane lanes.rxMap 5 16, rxSpare := [17], rxRetrain := [5], txRetrain := [5], attempts := [(5, 2), (23, 2)] }
    x.txRetrain.contains 5 = true ∧ x.rxRetrain = [5] ∧ x.rxMap.contains 5 = false ∧ Tbl.get (fun _ => 0) x.attempts 5 + 1 = 3 ∧ Tbl.get (fun _ => 0) x.attempts 23 + 1 = 3 ∧
      Tbl.get (fun _ => 0) lanes.attempts 5 + 1 < 3 := by decide +kernel
theorem wit_Engines_fail : (engined 3 { lanes with asked := true, swapped := true, replayFails := 7 }).engUp 0 = true ∧
    ((engined 3 { lanes with asked := true, swapped := true, replayFails := 7 }).engine 0).asked = true ∧ (7 : Nat) ≤ 7 := by decide +kernel
theorem wit_Flits : (engined 3 lanes).engUp 0 = true ∧ ((engined 3 { lanes with replay := [(3, oneFlit)] }).engine 0).replay = [(3, oneFlit)] ∧
    ([] : Bytes).length ≠ 256 ∧ up.board.engState 0 ∉ [Eng.up, Eng.loopback] ∧ (engined 5 lanes).board.engState 0 = Eng.loopback ∧
    (engined 5 lanes).board.fld (Pg.hb 0) F.hbControlLoopback = 0 ∧ lanes.queue = [] ∧ ((engined 3 lanes).group 0).waiting = [] := by decide +kernel
/-- Intact flits: an IDLE, the expected DATA flit without and with EOM, one behind and one ahead. -/
def flitOf (kind seq : Nat) (eom : Bool) : Bytes := flitBytes (flitHead kind false 4 true eom 15 seq 0 4 7) [1, 2, 3]
theorem wit_Flits_intact : ∀ f ∈ [flitOf 0 0 false, flitOf 2 0 false, flitOf 2 0 true, flitOf 2 65535 true, flitOf 2 1 true],
    f.length = 256 ∧ crc32c (f.take 12 ++ f.drop 16) = leAt f 12 4 ∧ (leAt f 0 12).testBit 2 = false ∧ bitsOf (leAt f 0 12) 6 4 < 5 := by decide +kernel
theorem wit_Flits_behind : [flitOf 0 0 false, flitOf 2 0 false, flitOf 2 65535 true, flitOf 2 1 true].map (fun f =>
    (bitsOf (leAt f 0 12) 1 0, (lanes.rxSeq + 65536 - bitsOf (leAt f 0 12) 31 16) % 65536)) = [(0, 0), (2, 0), (2, 1), (2, 65535)] := by decide +kernel
theorem wit_Messages : (joined.group 0).offset 4 0 = 0 ∧ ((joined.group 0).rxSeen.getD 4 []).contains 0 = false ∧ (joined.group 0).rxLow.length = 5 ∧
    (joined.group 0).rxSeen.length = 5 ∧ 2 ^ 31 ≤ (joined.group 0).offset 4 (2 ^ 32 - 1) ∧ (inState 7).quiet = true ∧ roleTakes (up.board.groupRole 0) 4 = false ∧
    (4, 0, Instr.peerMessage 0 []) ∈ messageRows 0 [] 0 ∧ (3, 0, Instr.endMsg 0 (fullOf 2 2 12).bytes) ∈ messageRows 0 (fullOf 2 2 12).bytes 0 := by decide +kernel
/-- A server group with one open tier 3 read of 64 bytes by core 5, at a given ATTEMPT. -/
def reading (att : Nat) : State :=
  let s := withFlds (grown kind0 id) [(Pg.hbGlobal, F.hbGlobalGroupCfgRole 0, 1), (Pg.opq0, F.opq0PartCoresLoCores 0, 32)]
  { s with net := { s.net with rreads := [⟨2560, 5, 0, 3, 64, 64, att⟩] }, cores := [(5, { Core.init with reads := [⟨2560, 0, 64, 3, false, false⟩] })] }
def rdataBody (att st : Nat) (data : Bytes) : Bytes := toLE 2 2560 ++ toLE 1 att ++ toLE 1 st ++ List.replicate 12 0 ++ data
theorem wit_Reads_remote : (reading 1).quiet = false ∧ roleTakes ((reading 1).board.groupRole 0) 2 = true ∧ (reading 1).sessionUp 0 = true ∧
    (reading 1).net.rreads.find? (fun q => q.tag == leAt (rdataBody 1 0 (List.replicate 64 9)) 0 2 && q.attempt == leAt (rdataBody 1 0 (List.replicate 64 9)) 2 1) = some ⟨2560, 5, 0, 3, 64, 64, 1⟩ ∧
    ((reading 1).core 5).waiting = [] ∧ ((reading 1).core 5).task = none ∧ (rdataBody 1 0 (List.replicate 64 9)).length = 80 ∧ leAt (rdataBody 4 2 []) 3 1 = 2 ∧
    (reading 4).net.rreads.find? (fun q => q.tag == 2560) = some ⟨2560, 5, 0, 3, 64, 64, 4⟩ ∧ up.net.rreads.find? (fun q => q.tag == 2560) = none := by decide +kernel
theorem wit_Reads_error :
    let s := { reading 4 with cores := [(5, { Core.init with task := some (0, 0, 0), reads := [⟨2560, 0, 64, 3, false, false⟩] })], ctxs := [(0, { Ctx.init with ops := [flying] })] }
    (s.core 5).task = some (0, 0, 0) ∧ (s.core 5).waiting = [] ∧ (s.ctx 0).ops = [flying] ∧ (s.ctx 0).owed = [] ∧ s.ringRoom 0 = true := by decide +kernel
/-- Group 0 joins rack 12, group 3, its session in a state of NOL.STATUS and its engine 0 UP. -/
def talking (ses : Nat) (x : Group) : State := (withFlds (grown kind0 id) [(Pg.nol 0, F.nolStatusSession, ses), (Pg.hbGlobal, F.hbGlobalGroupCfgPeerGroup 0, 3)]).setGroup 0 x
/-- An OFFER of rack 12's group 3: its LOWEST, its HIGHEST, its ROLE. -/
def offerOf (lo hi role : Nat) : Bytes := toLE 1 lo ++ toLE 1 hi ++ toLE 1 role ++ [3] ++ toLE 4 0x1F ++ toLE 2 12 ++ List.replicate 22 0
theorem wit_Sessions_offer : (talking 1 Group.init).board.session 0 = Ses.offered ∧ ((talking 1 Group.init).group 0).sentAccept = none ∧
    ((talking 1 Group.init).group 0).gotAccept = none ∧ (talking 3 Group.init).board.session 0 = Ses.refused ∧ (talking 0 Group.init).board.session 0 = Ses.none ∧
    ((talking 0 Group.init).upEngines 0).isEmpty = false ∧ (talking 1 Group.init).offerCause 0 (offerOf 1 3 2) = 0 := by decide +kernel
/-- Each cause of the table is the first for some OFFER. -/
theorem wit_Sessions_causes : [offerOf 0 3 2, offerOf 3 2 2, offerOf 1 1 2, offerOf 1 3 1].map ((talking 1 Group.init).offerCause 0) = [1, 2, 3, 4] ∧
    (grown kind0 id).offerCause 0 (offerOf 1 3 2) = 5 := by decide +kernel
theorem wit_Sessions_accept :
    let s := talking 1 { Group.init with sentAccept := some (3, 0x19) }
    let b := toLE 1 3 ++ toLE 3 0 ++ toLE 4 0x19 ++ List.replicate 24 0
    s.board.session 0 = Ses.offered ∧ (s.group 0).sentAccept = some (leAt b 0 1, leAt b 4 4) ∧ (s.group 0).last = none ∧ s.board.groupRole 0 = 2 ∧
      (withFlds s [(Pg.bup, F.bupStatusState, 7)]).inService = false ∧ (3, 0x19) ≠ (2, 0x19) := by decide +kernel
theorem wit_Sessions_close : (talking 2 Group.init).board.session 0 = Ses.up ∧ (talking 2 Group.init).inService = true := by decide +kernel
theorem wit_Sessions_reoffer : (talking 3 Group.init).mayWrite .a (Pg.nol 0) ∧ ((talking 3 Group.init).upEngines 0).isEmpty = false ∧
    ((talking 3 Group.init).group 0).offer = none ∧ (up.upEngines 0).isEmpty = true ∧ up.mayWrite .a (Pg.nol 0) := by decide +kernel
theorem wit_Sessions_far :
    let s := withFlds (talking 2 Group.init) [(Pg.bup, F.bupStatusState, 7), (Pg.nol 0, F.nolSessionFeaturesFeatures, 0x10)]
    let w := withFlds (talking 2 Group.init) [(Pg.hb 0, F.hbControlFarLoop, 1)]
    s.inService = false ∧ s.sesFeature 0 4 = true ∧ s.engUp 0 = true ∧ leAt ([1] : Bytes) 0 1 = 1 ∧ (talking 2 Group.init).sesFeature 0 4 = false ∧
      (engined 5 lanes).board.engState (4 * 0 + leAt [0, 0, 0] 2 1 % 4) = Eng.loopback ∧
      (groupEngines 0).find? (fun i => w.board.flag (Pg.hb i) F.hbControlFarLoop && w.engUp i) = some 0 := by decide +kernel
theorem wit_Sessions_loop :
    let s := withFlds (engined 3 lanes) [(Pg.bup, F.bupStatusState, 7)]
    let w := withFlds (engined 5 lanes) [(Pg.bup, F.bupStatusState, 7), (Pg.hb 0, F.hbControlLoopback, 2)]
    s.mayWrite .a (Pg.hb 0) ∧ s.rwbState = true ∧ s.engUp 0 = true ∧ w.mayWrite .a (Pg.hb 0) ∧ w.board.fld (Pg.hb 0) F.hbControlLoopback ≠ 0 ∧
      w.board.engState 0 = Eng.loopback ∧ (engined 3 lanes).mayWrite .a (Pg.hb 0) ∧ (engined 3 lanes).rwbState = false := by decide +kernel

/-! ### The crown -/

/-- A module of a job of four in a group of `size`, with a role, its grid running from GTC 1000 at tick 5 with a period of 100, group 0 toward rack 12 and
group 1 toward rack 9, where the crown is, as `x`. -/
def ranked (role rank size : Nat) (x : Crown → Crown) : State :=
  let s := withFlds (grown kind0 id) [(Pg.role, F.roleStatusRole, role), (Pg.role, F.roleRankJobRank, rank), (Pg.role, F.roleRankJobSizeM1, 3), (Pg.role, F.roleGroupCfgSize, size),
    (Pg.role, F.roleCrownCurrent, 9), (Pg.role, F.roleDeputyRack, 7), (Pg.role, F.roleDeputyLossTicks, 4), (Pg.tk, F.tkStatusRunning, 1), (Pg.clk, F.clkMclkStateCurrent, 20)]
  { s with crown := x { Crown.reset with tick := 7, baseTick := 5, base := 1000, period := 100, members := [(0, 9), (1, 12)] }, board := { s.board with gtc := 1250 } }
def syncBody (gtc tick per : Nat) : Bytes := toLE 8 gtc ++ toLE 8 tick ++ toLE 4 per ++ List.replicate 12 0
theorem wit_GroupTime : (ranked 1 1 4 id).hears 1 0 ∧ (ranked 1 1 4 id).isFollower = true ∧ (ranked 2 0 4 id).isFollower = false ∧ (ranked 2 0 4 id).hears 1 0 ∧
    (ranked 1 1 4 id).gridRuns = true ∧ (ranked 1 1 4 id).crown.moveTo = none ∧ leAt (syncBody 9300 8 100) 8 8 = 8 ∧
    (ranked 1 1 4 id).crown.base + (8 - (ranked 1 1 4 id).crown.baseTick) * (ranked 1 1 4 id).crown.period = 1300 ∧
    (ranked 1 1 4 (fun c => { c with delaySent := some 1200 })).crown.delaySent = some (leAt (toLE 8 1200) 0 8) ∧
    (ranked 1 1 4 id).crown.delaySent ≠ some (leAt (toLE 8 1200) 0 8) := by decide +kernel
/-- An SYNC at 1302 slews by 2 cycles, one at 1303 moves the grid. -/
theorem wit_GroupTime_near : (1302 - 1300 ≤ 2) ∧ ¬ (1303 - 1300 ≤ 2) ∧
    (ranked 1 1 4 (fun c => { c with follows := true, lastSync := some (9200, 1200) })).crown.lastSync = some (9200, 1200) := by decide +kernel
theorem wit_JobBarriers :
    let top := ranked 2 0 4 (fun c => { c with barOwn := true, barKids := [(1, 1), (2, 1)] })
    let leaf := ranked 1 1 4 (fun c => { c with barOwn := true, releaseAt := some 2000 })
    top.hears 0 0 ∧ top.role ≠ 0 ∧ top.holdsTop = true ∧ top.childRanks.length ≤ (top.crown.barKids.filter (fun (k : Nat × Nat) => !(k.1 == 0)) ++ [(0, 3)]).length ∧
      leaf.hears 0 0 ∧ leaf.role ≠ 0 ∧ leaf.holdsTop = false ∧ leaf.childRanks.length ≤ 1 ∧ leaf.crown.releaseAt = some 2000 ∧ top.crown.releaseAt = none ∧
      (ranked 1 1 4 id).crown.barOwn = false ∧ top.quiet = false ∧ (inState 7).quiet = true := by decide +kernel
theorem wit_CrownLost :
    let s := ranked 1 1 4 (fun c => { c with syncLost := 4 })
    let d := { withFlds s [(Pg.mem, F.memRackIdIndex, 7), (ctxPage 0, F.opqCtxStateState 0, 3), (Pg.opq0, F.opq0PartCoresLoCores 0, 1), (Pg.opq0, F.opq0PartCtrlRunValid 0, 1)] with ctxs := [(0, Ctx.init)] }
    let l := ranked 1 1 4 (fun c => { c with syncLost := 4, lost := true })
    s.isFollower = true ∧ s.crown.lost = false ∧ s.lossTicks ≤ s.crown.syncLost ∧ s.deputyRack ≠ s.rack ∧ d.isFollower = true ∧ d.lossTicks ≤ d.crown.syncLost ∧
      d.deputyRack = d.rack ∧ d.runningCtx 0 = some 0 ∧ l.isFollower = true ∧ l.crown.lost = true ∧ l.lossTicks ≤ l.crown.syncLost ∧
      (ranked 1 1 4 id).crown.syncLost < (ranked 1 1 4 id).lossTicks := by decide +kernel
/-- The same module as rack 5. -/
def racked (role rank size : Nat) (l : List (Nat × Fld × Nat)) (x : Crown → Crown) : State := withFlds (ranked role rank size x) ((Pg.mem, F.memRackIdIndex, 5) :: l)
theorem wit_Aborts_reports :
    let s := withFlds up [(Pg.tk, F.tkStatusRunning, 1)]
    s.isCrown = false ∧ s.holdsTop = false ∧ s.gridRuns = true := by decide +kernel
theorem wit_Aborts :
    let s := { racked 1 1 4 [(ctxPage 0, F.opqCtxStateState 0, 3), (Pg.opq0, F.opq0PartCoresLoCores 0, 1), (Pg.opq0, F.opq0PartCtrlRunValid 0, 1)] (fun c => { c with aborts := [⟨3, 1, 3, 8⟩] }) with
      ctxs := [(0, { Ctx.init with ops := [flying], stepped := true, stepNo := 2 })], trees := [(5, opened Tree.init)] }
    0 < s.crown.period ∧ s.crown.baseTick ≤ s.crown.tick ∧ s.crown.base ≤ 1900 ∧ s.gridPoint (s.gridAt 1900 - 1) < 1900 ∧ s.hears 0 0 ∧ s.gridRuns = true ∧
      s.crown.aborts = [⟨3, 1, 3, 8⟩] ∧ 8 ≤ s.crown.tick + 1 ∧ s.cstate 0 ≠ Cs.free ∧ s.cstate 1 = Cs.free ∧ (s.ctx 0).stepped = true ∧ (s.runningCtx 0).isSome = true ∧
      s.partCores 0 = [0] ∧ (s.tree 5).step = 3 ∧ (s.tree 4).step ≠ 3 ∧
      (∀ a ∈ (ranked 1 1 4 (fun c => { c with aborts := [⟨3, 1, 3, 9⟩] })).crown.aborts, (7 : Nat) + 1 < a.target) ∧ ((feeding 0 dead0).feed 0).cur ≠ none := by decide +kernel
theorem wit_Remaps :
    let own := remapBody 0 5 2 0xF 2 7
    let s := racked 1 1 4 [] (fun c => { c with remaps := [own] })
    let k := racked 2 0 4 [] id
    s.gridRuns = true ∧ s.crown.remaps = [own] ∧ s.remapDue own = true ∧ leAt own 4 2 % 4096 = s.rack ∧ leAt own 6 1 = 2 ∧ leAt (remapBody 0 12 0xFF 0 2 7) 6 1 = 0xFF ∧
      s.peerGroup 12 = some 0 ∧ s.peerGroup 30 = none ∧ (12 : Nat) ≠ s.rack ∧ k.isCrown = true ∧ k.answers = true ∧ k.board.owner = some (linkIdx .a) ∧ s.isCrown = false ∧
      ({ s with ctxs := [(0, Ctx.init)], board := s.board.setFld (ctxPage 0) (F.opqCtxStateState 0) 3 } : State).remapDue own = false := by decide +kernel
theorem wit_Reports :
    let k := racked 2 0 4 [(Pg.role, F.roleCrownCfgAutoExclude, 1)] id
    let b := toLE 2 12 ++ [1, 0] ++ toLE 12 5
    k.isCrown = true ∧ leAt b 2 1 ≠ 0 ∧ k.autoExclude = true ∧ leAt b 0 2 % 4096 ≠ k.rack ∧ leAt (toLE 2 5 ++ [1]) 0 2 % 4096 = k.rack ∧ (racked 2 0 4 [(Pg.role, F.roleCrownCfgAutoExclude, 0)] id).autoExclude = false ∧
      (racked 1 1 4 [] id).isCrown = false ∧ k.holdsTop = true ∧ k.gridRuns = true ∧ leAt (toLE 8 0) 3 1 = k.attemptOf (leAt (toLE 8 0) 4 4) ∧
      leAt (toLE 8 (2 ^ 24)) 3 1 ≠ k.attemptOf (leAt (toLE 8 (2 ^ 24)) 4 4) := by decide +kernel
theorem wit_Notices :
    let k := racked 2 0 4 [(Pg.role, F.roleCrownCfgBattAbort, 1), (Pg.role, F.roleCrownCfgAutoExclude, 1)] id
    let g := racked 2 1 2 [(Pg.role, F.roleCrownCfgBattAbort, 0)] id
    let b := toLE 2 5 ++ [0, 0] ++ toLE 8 0 ++ toLE 2 2
    k.board.flag Pg.role F.roleStatusHandover = false ∧ k.holdsTop = true ∧ k.gridRuns = true ∧ k.board.flag Pg.role F.roleCrownCfgBattAbort = true ∧ g.holdsTop = false ∧
      g.isCrown = true ∧ (racked 1 1 4 [] id).isCrown = false ∧ g.board.flag Pg.role F.roleCrownCfgBattAbort = false ∧ leAt b 3 1 = k.attemptOf (leAt b 4 4) ∧
      leAt b 0 2 % 4096 = k.rack ∧ (∀ m ∈ k.crown.members, m.2 ≠ 5) ∧ namedRanks k.rank (leAt b 12 2) k.jobSize = [1] ∧ k.rank ∉ [1] ∧ k.rank < k.jobSize ∧
      namedRanks k.rank 1 k.jobSize = [0] ∧ k.rank ∈ [0] := by decide +kernel
theorem wit_Swaps :
    let s := racked 1 1 4 [] id
    let k := racked 2 0 4 [] id
    let asked := racked 1 1 4 [(Pg.role, F.roleSwapStateState, 1)] (fun c => { c with swapRack := 12 })
    let askedCrown := racked 2 0 4 [(Pg.role, F.roleSwapStateState, 1)] (fun c => { c with swapRack := 12 })
    s.inService = true ∧ s.role ≠ 0 ∧ s.isCrown = false ∧ s.board.fld Pg.role F.roleCrownCurrent = 9 ∧ s.board.flag Pg.role F.roleStatusHandover = false ∧ s.swapState ≠ 1 ∧
      k.isCrown = true ∧ k.inService = true ∧ k.role ≠ 0 ∧ asked.swapState = 1 ∧ asked.crown.swapRack = 12 ∧ asked.rack < 12 ∧ askedCrown.swapState = 1 ∧ askedCrown.isCrown = true ∧
      (withFlds s [(Pg.bup, F.bupStatusState, 7)]).inService = false ∧ up.role = 0 ∧ (racked 1 1 4 [(Pg.role, F.roleStatusHandover, 1)] id).board.flag Pg.role F.roleStatusHandover = true ∧
      (racked 1 1 4 [(Pg.role, F.roleSwapStateState, 2)] (fun c => { c with candidate := true })).swapState = 2 ∧ s.crown.candidate = false ∧ k.role = 2 ∧ k.jobSize ≤ k.groupSize := by
  decide +kernel
theorem wit_Swaps_hears : (racked 1 1 4 [] id).hears 0 1 ∧ (racked 2 0 4 [] id).hears 1 1 := by decide +kernel
theorem wit_Handover :
    let s := ranked 1 1 4 (fun c => { c with swapAt := some 8, candidate := true, conflictAt := some 6 })
    let late := ranked 1 1 4 (fun c => { c with swapAt := some 9, conflictAt := some 7 })
    s.gridRuns = true ∧ s.crown.swapAt = some 8 ∧ 8 ≤ s.crown.tick + 1 ∧ late.crown.tick + 1 < 9 ∧ late.crown.candidate = false ∧ s.mayWrite .a Pg.role ∧
      (0xC0001 : Word).getLsbD 0 = true ∧ reservedBits .role 0x114 (0xC0001 : Word).toNat = 0 ∧ s.role ≠ 0 ∧ ¬ (s.crown.tick < 6 + 1) ∧ late.crown.tick < 7 + 1 := by decide +kernel

/-! ### Ticks -/

/-- The grid runs with its close point passed, and core 5 as `x`; partition 0 holds core 5 for context 0. -/
def ticking (x : Core) (f : Crown → Crown) : State :=
  let s := withFlds (withCore x) [(Pg.tk, F.tkStatusRunning, 1), (Pg.clk, F.clkMclkStateCurrent, 20), (Pg.pwr, F.pwrGlobalOperatingDuty, 16), (Pg.opq0, F.opq0PartCoresLoCores 0, 32),
    (ctxPage 0, F.opqCtxStateState 0, 2), (ctxPage 0, F.opqCtxCfgShare 0, 1)]
  { s with crown := f { Crown.reset with tick := 7, baseTick := 5, base := 1000, period := 4096, closed := true },
           ctxs := [(0, { Ctx.init with closePi := 1, fetched := [(0, descOf 1 0x50 0 [] 0)] })] }
def busyCore (sampled : Bool) (doneAt : Option Nat) : Core := { Core.init with task := some (0, 0, 9192), sampled := sampled, doneAt := doneAt }
/-- What the sensors measured: the input power in units of 10 W. -/
def measured (power : Nat) : Meas := ⟨power, 4800, 1, 1, 2, 20, 30, 100, List.replicate 24 60, [50, 50], [50, 50, 50, 50]⟩
theorem wit_Ticks_plain : ∀ s ∈ [ticking (busyCore false none) id, ticking (busyCore true (some 13000)) id], s.gridRuns = true ∧ s.alive = true ∧ s.crown.closed = true ∧
    s.crown.moveTo = none ∧ s.crown.aborts = [] ∧ s.crown.swapAt = none ∧ s.crown.remaps = [] ∧ s.crown.resets = [] ∧ s.crown.deputyLost = false ∧ s.bup.heldAbort = false ∧
    s.bup.resetPending = false ∧ s.bup.toService = false ∧ s.bup.regrid = false := by decide +kernel
theorem wit_Ticks_late :
    let late := fun (s : State) => (List.range 96).filter (fun k => (s.core k).task.isSome && !(s.core k).sampled)
    late (ticking (busyCore false none) id) = [5] ∧ (ticking (busyCore false none) id).board.flag Pg.tk F.tkStatusHeld = false ∧ (ticking (busyCore false none) id).partCores 0 = [5] ∧
      late (ticking (busyCore true (some 13000)) id) = [] ∧ ((ticking (busyCore true (some 13000)) id).core 5).task = some (0, 0, 9192) ∧
      ((ticking (busyCore true (some 13000)) id).core 5).overran = none ∧ up.gridRuns = false ∧ (ticking (busyCore true none) id).cstate 0 = Cs.ready ∧
      ((ticking (busyCore true none) id).ctx 0).disablePending = false := by decide +kernel
/-- At 90 kW no point fits; at 9 kW the point in force does, and one above it. -/
theorem wit_Ticks_point : powerFits (measured 900) 2300 16 20 1 10 = true ∧ powerFits (measured 900) 2300 16 20 16 21 = true ∧ powerFits (measured 9000) 2300 16 20 1 10 = false ∧
    powerFits (measured 2500) 2300 16 20 16 20 = false ∧ powerFits (measured 2500) 2300 16 20 13 20 = true := by decide +kernel
theorem wit_Ticks_stalled :
    let s := { ticking (busyCore true (some 13000)) id with parts := [(0, { Part.init with causes := [0, 6] })], crown := { (ticking (busyCore true none) id).crown with snaps := [8, 9] } }
    (s.part 0).causes ≠ [] ∧ (s.partCores 0).isEmpty = false ∧ s.inService = true ∧ (∃ x ∈ s.crown.snaps, x ≤ s.crown.tick + 1) ∧
      (withFlds s [(Pg.opq0, F.opq0PartCtrlRunValid 0, 1)]).runningCtx 0 = some 0 := by decide +kernel

/-! ### Ill-formed commands -/

/-- One command out of range for each check, which the check refuses. -/
theorem test_wf_refuses : ∀ c ∈ [Instr.taskComplete 96 0, .ocGate 24 0, .sliceHot 576 0 [], .linkHot 25 0 0 [], .linkHot 0 64 0 [], .gemm 256, .arm .a 16, .operatorComplete 0 65536,
    .close 12, .engineDown 48, .laneRetrain 0 18, .segmentRelease 64, .treeCfgWrite .a 4 0 0, .lockLost 48, .openPhase 0 32, .arrayCheck 0 400, .strandFault 0 0 0 16384, .channelDown 3072,
    .refetchDone (2 ^ 31), .eventW1c .a 1024 0, .lowWordRead .a 0 2, .lowWordRead .a 0 4096, .revoke .a 8, .readRequest 0 (2 ^ 52) 64 false false, .bar0Read .a (2 ^ 22) 4,
    .bar2Read .a (2 ^ 36) 4, .pmbusNack 256, .pcieLinkUp .a 0 16, .pcieLinkUp .a 6 16, .pcieLinkUp .a 5 3, .heldEntry 0 16, .batt (List.replicate 63 0), .flitReceive 0 []], c.wf = false := by decide
/-- The highest of each range passes. -/
theorem test_wf_admits : ∀ c ∈ [Instr.taskComplete 95 0, .ocGate 23 0, .sliceHot 575 0 [], .linkHot 24 63 0 [], .gemm 255, .arm .a 15, .operatorComplete 255 65535, .close 11, .engineDown 47,
    .laneRetrain 47 17, .segmentRelease 63, .treeCfgWrite .b 3 4092 0, .lockLost 47, .openPhase 23 31, .arrayCheck 95 399, .strandFault 95 255 0 16383, .channelDown 3071,
    .refetchDone (2 ^ 31 - 1), .eventW1c .a 1023 0, .revoke .a 7, .readRequest 95 (2 ^ 52 - 1) 64 false false, .bar0Read .a (2 ^ 22 - 1) 1, .pmbusNack 255, .pcieLinkUp .a 1 1,
    .pcieLinkUp .b 5 16, .heldEntry 1023 15, .batt (List.replicate 64 0)], c.wf = true := by decide

/-! ### Values that the spec states -/

/-- The next state that a command answers. -/
def after (c : Instr) (s : State) : State :=
  match exec c s with
  | .next t => t
  | _ => s

/-- "123456789" (R50, R290). -/
theorem test_crc_check : crc64 [0x31, 0x32, 0x33, 0x34, 0x35, 0x36, 0x37, 0x38, 0x39] = 0x995DC9BBDF1939FA ∧
    crc32c [0x31, 0x32, 0x33, 0x34, 0x35, 0x36, 0x37, 0x38, 0x39] = 0xE3069283 := by decide +kernel
/-- The worked example after R326: the late core holds the boundary, HELD and the counters of step 3. -/
theorem test_overrun_holds :
    let t := after (.tickBoundary (measured 900)) (ticking (busyCore false none) id)
    t.board.flag Pg.tk F.tkStatusHeld = true ∧ t.board.cnt Pg.mem (Cn.memStall 7) = 1 ∧ t.board.cnt Pg.tk Cn.tkHeldBoundaries = 1 ∧
        t.board.evBit (Pg.core 5) F.coreEventOverrun.lsb = true := by decide +kernel
/-- Its step 5: the core completes 3,100 cycles after t0 and latches −3,100. -/
theorem test_overrun_slack :
    let t := after (.taskComplete 5 (13288 + 3100)) (ticking { busyCore false none with overran := some 13288 } id)
    t.board.cnt (Pg.core 5) Cn.coreSlackLast = 2 ^ 64 - 3100 := by decide +kernel
/-- A claim while no link owns the module (R433). -/
theorem test_claim :
    let t := after (.claim .b) (withFlds up [(Pg.tel, F.telStatusOwner, 0)])
    t.board.owner = some 1 ∧ t.board.cnt Pg.tel Cn.telOwnerChanges = 1 := by decide +kernel
/-- NOP completes at once with a record (R156, R139). -/
theorem test_nop :
    let t := after (.nop 0) (paged (descOf 1 0x00 0 [] 0))
    t.wi 0 = 1 ∧ t.ci 0 = 1 := by decide +kernel

end Sys2Proof.Tests
end

section
/-! SUPPORT. One step of the block (02: R2, R323): the front command, or one idle cycle. -/
namespace Sys2Proof.Machine

/-- A step with a command waiting is that command on the rest of the queue. -/
theorem step_of_pending {s : State} {c : Instr} {rest : List Instr} (h : s.pending = c :: rest) :
    step s = exec c { s with pending := rest } := by
  simp only [step, h]

/-- A step with nothing waiting is one idle cycle. -/
theorem step_of_pending_nil {s : State} (h : s.pending = []) : step s = .next (idle s) := by
  simp only [step, h]

/-- Settles O58: the two branches of `step`, and `decodeTableWord`, which spells nothing. -/
theorem stepRunsTheFrontCommand : Obligations.StepRunsTheFrontCommand :=
  ⟨fun _ _ _ h => step_of_pending h, fun _ h => step_of_pending_nil h, fun _ _ _ => ⟨rfl, rfl⟩⟩

end Sys2Proof.Machine
end

section
/-! SUPPORT. The bits that a register write takes over: lists of positions as masks, and a word merged under a mask. -/
namespace Sys2Proof.Machine

theorem testBit_setBit (w i j : Nat) : (setBit w i).testBit j = (w.testBit j || decide (i = j)) := by
  rw [setBit, Nat.testBit_or, Nat.one_shiftLeft, Nat.testBit_two_pow]

theorem testBit_foldl_setBit (l : List Nat) (w j : Nat) : (l.foldl setBit w).testBit j = (w.testBit j || decide (j ∈ l)) := by
  induction l generalizing w with
  | nil => simp
  | cons i r ih => simp [ih, testBit_setBit, eq_comm, Bool.or_assoc]

/-- The set bits of a mask are the listed positions. -/
theorem testBit_maskOfList (l : List Nat) (j : Nat) : (maskOfList l).testBit j = decide (j ∈ l) := by
  simp [maskOfList, testBit_foldl_setBit]

theorem mem_bitList (n w i : Nat) : i ∈ bitList n w ↔ i < n ∧ w.testBit i = true := by simp [bitList]

theorem testBit_bitsWithout (a b i : Nat) (hi : i < 32) : (bitsWithout a b).testBit i = (a.testBit i && !b.testBit i) := by
  rw [bitsWithout, testBit_maskOfList, Bool.eq_iff_iff]
  simp [mem_bitList, hi]

theorem reservedBits_lt (k : PageKind) (off v : Nat) : reservedBits k off v < 2 ^ 32 := by
  refine Nat.lt_pow_two_of_testBit _ fun i hi => ?_
  have hn : ¬ i < 32 := by omega
  simp [reservedBits, testBit_maskOfList, mem_bitList, hn]

/-- A word whose masked bits are taken from another: bit `i` comes from the side that the mask names. -/
theorem getLsbD_merge (old : Word) (v take i : Nat) (hi : i < 32) :
    ((old &&& ~~~(BitVec.ofNat 32 take)) ||| (BitVec.ofNat 32 v &&& BitVec.ofNat 32 take)).getLsbD i =
      if take.testBit i then v.testBit i else old.getLsbD i := by
  simp only [BitVec.getLsbD_or, BitVec.getLsbD_and, BitVec.getLsbD_not, BitVec.getLsbD_ofNat, hi, decide_true, Bool.true_and]
  cases take.testBit i <;> simp

end Sys2Proof.Machine
end

section
/-! SUPPORT. What an access error and a level event report (R463, R465): their MOD registers, their EVENT bits and their counters. -/
namespace Sys2Proof.Machine

/-- A register word of MOD that no event touches: neither MOD.EVENT nor a word of TRC. -/
theorem fld_raise_mod (b : Board) (f g : Fld) (hg : g.off < 4096) (he : g.off / 4 ≠ evtOff / 4) :
    (b.raise Pg.mod f).fld Pg.mod g = b.fld Pg.mod g := by
  refine (raise_keeps b Pg.mod f).fld Pg.mod g fun r hr => ?_
  simp only [logRegs, List.mem_cons, List.not_mem_nil, or_false, evReg] at hr
  rcases hr with rfl | rfl | rfl <;> simp only [regKey, Pg.mod, Pg.trc] <;> omega

theorem cnt_raise_mod (b : Board) (f : Fld) (o : Nat) (ho : o < 0xC00) : (b.raise Pg.mod f).cnt Pg.mod o = b.cnt Pg.mod o := by
  refine (raise_keeps b Pg.mod f).cnts Pg.mod o fun c hc => ?_
  simp only [logCnts, List.mem_map, List.mem_range] at hc
  obtain ⟨i, hi, rfl⟩ := hc
  simp only [cntKey, Pg.mod, Pg.trc]
  omega

theorem cnt_setFlds (b : Board) (p q o : Nat) (l : List (Fld × Nat)) : (b.setFlds p l).cnt q o = b.cnt q o :=
  (setFlds_keeps b p l).cnts q o (by simp)

/-- What MOD.ACCESS_LAST shows after an access error. -/
theorem accErr_fields (b : Board) {page off cause : Nat} (src : Nat) (hp : page < 1024) (ho : off < 4096) (hc : cause < 16) :
    (b.accErr page off cause src).fld Pg.mod F.modAccessLastPage = page ∧
      (b.accErr page off cause src).fld Pg.mod F.modAccessLastWord = off / 4 ∧
      (b.accErr page off cause src).fld Pg.mod F.modAccessLastCause = cause := by
  unfold Board.accErr Board.setFlds
  simp only [List.foldl]
  refine ⟨?_, ?_, ?_⟩ <;> rw [fld_raise_mod _ _ _ (by decide) (by decide)]
  · iterate 3 rw [fld_setFld_bits _ _ _ _ _ (by decide)]
    exact (fld_setFld_same _ _ _ _ (by decide)).trans (Nat.mod_eq_of_lt hp)
  · iterate 2 rw [fld_setFld_bits _ _ _ _ _ (by decide)]
    exact (fld_setFld_same _ _ _ _ (by decide)).trans (Nat.mod_eq_of_lt (show off / 4 < 1024 by omega))
  · rw [fld_setFld_bits _ _ _ _ _ (by decide)]
    exact (fld_setFld_same _ _ _ _ (by decide)).trans (Nat.mod_eq_of_lt hc)

/-- What MOD.LEVEL_LAST and LEVEL_MASK show after a level event. -/
theorem levelEvt_fields (b : Board) {page off mask : Nat} (src : Nat) (hp : page < 1024) (ho : off < 4096) (hm : mask < 2 ^ 32) :
    (b.levelEvt page off mask src).fld Pg.mod F.modLevelLastPage = page ∧
      (b.levelEvt page off mask src).fld Pg.mod F.modLevelLastWord = off / 4 ∧
      (b.levelEvt page off mask src).fld Pg.mod F.modLevelMaskBits = mask := by
  unfold Board.levelEvt Board.setFlds
  simp only [List.foldl]
  refine ⟨?_, ?_, ?_⟩ <;> rw [fld_raise_mod _ _ _ (by decide) (by decide)]
  · rw [fld_setFld_key _ _ _ _ _ _ (by decide)]
    iterate 2 rw [fld_setFld_bits _ _ _ _ _ (by decide)]
    exact (fld_setFld_same _ _ _ _ (by decide)).trans (Nat.mod_eq_of_lt hp)
  · rw [fld_setFld_key _ _ _ _ _ _ (by decide), fld_setFld_bits _ _ _ _ _ (by decide)]
    exact (fld_setFld_same _ _ _ _ (by decide)).trans (Nat.mod_eq_of_lt (show off / 4 < 1024 by omega))
  · exact (fld_setFld_same _ _ _ _ (by decide)).trans (Nat.mod_eq_of_lt hm)

theorem evBit_accErr (b : Board) (page off cause src : Nat) : (b.accErr page off cause src).evBit Pg.mod F.modEventAccessError.lsb = true := by
  rw [Board.accErr, evBit_raise _ _ _ _ (by decide) (by decide) (by decide)]
  simp

/-- A level event sets its own bit of MOD.EVENT and no other. -/
theorem evBit_levelEvt (b : Board) (page off mask src j : Nat) (hj : j < 32) :
    (b.levelEvt page off mask src).evBit Pg.mod j = (decide (j = F.modEventLevelWrite.lsb) || b.evBit Pg.mod j) := by
  rw [Board.levelEvt, evBit_raise _ _ _ _ (by decide) hj (by decide),
    (setFlds_keeps ..).evBit _ _ (by simp only [List.map]; decide), evBit_inc]

theorem cnt_accErr (b : Board) (page off cause src : Nat) :
    (b.accErr page off cause src).cnt Pg.mod Cn.modAccessErrors = (b.cnt Pg.mod Cn.modAccessErrors + 1) % 2 ^ 64 := by
  rw [Board.accErr, cnt_raise_mod _ _ _ (by decide), cnt_setFlds, cnt_inc_same]

theorem cnt_levelEvt (b : Board) (page off mask src : Nat) :
    (b.levelEvt page off mask src).cnt Pg.mod Cn.modLevelWrites = (b.cnt Pg.mod Cn.modLevelWrites + 1) % 2 ^ 64 := by
  rw [Board.levelEvt, cnt_raise_mod _ _ _ (by decide), cnt_setFlds, cnt_inc_same]

theorem cnt_lt (b : Board) (p o : Nat) : b.cnt p o < 2 ^ 64 := BitVec.isLt _

/-! ### The reports of one write -/

/-- The access error of a write, with no cause none. -/
def Board.accErrIf (b : Board) (page off cause src : Nat) : Board := if cause = 0 then b else b.accErr page off cause src

/-- The level event of a write, with no reserved bit none. -/
def Board.levelEvtIf (b : Board) (page off mask src : Nat) : Board := if mask = 0 then b else b.levelEvt page off mask src

/-- The reports that a write ends with (R463, R465). -/
def Board.report (b : Board) (page off cause mask src : Nat) : Board := (b.accErrIf page off cause src).levelEvtIf page off mask src

variable (b : Board) {page off cause mask : Nat} (src : Nat)

theorem accErrIf_keeps : b.Keeps (b.accErrIf page off cause src) ([(Pg.mod, F.modAccessLastPage.off), evReg Pg.mod] ++ logRegs)
    ((Pg.mod, Cn.modAccessErrors) :: logCnts) [] := by
  unfold Board.accErrIf
  split
  · exact Board.Keeps.refl ..
  · exact accErr_keeps ..

theorem levelEvtIf_keeps : b.Keeps (b.levelEvtIf page off mask src)
    ([(Pg.mod, F.modLevelLastPage.off), (Pg.mod, F.modLevelMaskBits.off), evReg Pg.mod] ++ logRegs) ((Pg.mod, Cn.modLevelWrites) :: logCnts) [] := by
  unfold Board.levelEvtIf
  split
  · exact Board.Keeps.refl ..
  · exact levelEvt_keeps ..

theorem report_keeps : b.Keeps (b.report page off cause mask src) hostRegs hostCnts [] :=
  ((accErrIf_keeps b src).mono (by decide) (by decide)).trans0 ((levelEvtIf_keeps _ src).mono (by decide) (by decide))

theorem evBit_levelEvtIf_of_set (h : b.evBit Pg.mod F.modEventAccessError.lsb = true) :
    (b.levelEvtIf page off mask src).evBit Pg.mod F.modEventAccessError.lsb = true := by
  unfold Board.levelEvtIf
  split
  · exact h
  · rw [evBit_levelEvt _ _ _ _ _ _ (by decide), h, Bool.or_true]

/-- The access error of a report stands in MOD.ACCESS_LAST and MOD.EVENT. -/
theorem report_accErr (hp : page < 1024) (ho : off < 4096) (hc : cause < 16) (h : cause ≠ 0) :
    (b.report page off cause mask src).fld Pg.mod F.modAccessLastPage = page ∧
      (b.report page off cause mask src).fld Pg.mod F.modAccessLastWord = off / 4 ∧
      (b.report page off cause mask src).fld Pg.mod F.modAccessLastCause = cause ∧
      (b.report page off cause mask src).evBit Pg.mod F.modEventAccessError.lsb = true := by
  obtain ⟨hpage, hword, hcause⟩ := accErr_fields b src hp ho hc
  have keep := levelEvtIf_keeps (b.accErr page off cause src) (page := page) (off := off) (mask := mask) src
  rw [Board.report, Board.accErrIf, if_neg h]
  exact ⟨(keep.fld _ _ (by decide)).trans hpage, (keep.fld _ _ (by decide)).trans hword, (keep.fld _ _ (by decide)).trans hcause,
    evBit_levelEvtIf_of_set _ _ (evBit_accErr ..)⟩

/-- The level event of a report stands in MOD.LEVEL_LAST, LEVEL_MASK and MOD.EVENT. -/
theorem report_levelEvt (hp : page < 1024) (ho : off < 4096) (hm : mask < 2 ^ 32) (h : mask ≠ 0) :
    (b.report page off cause mask src).fld Pg.mod F.modLevelLastPage = page ∧
      (b.report page off cause mask src).fld Pg.mod F.modLevelLastWord = off / 4 ∧
      (b.report page off cause mask src).fld Pg.mod F.modLevelMaskBits = mask ∧
      (b.report page off cause mask src).evBit Pg.mod F.modEventLevelWrite.lsb = true := by
  rw [Board.report, Board.levelEvtIf, if_neg h]
  obtain ⟨hpage, hword, hmask⟩ := levelEvt_fields (b.accErrIf page off cause src) src hp ho hm
  refine ⟨hpage, hword, hmask, ?_⟩
  rw [evBit_levelEvt _ _ _ _ _ _ (by decide)]
  rfl

theorem cnt_report_accessErrors : (b.report page off cause mask src).cnt Pg.mod Cn.modAccessErrors =
    (b.cnt Pg.mod Cn.modAccessErrors + if cause = 0 then 0 else 1) % 2 ^ 64 := by
  rw [Board.report, (levelEvtIf_keeps _ src).cnts _ _ (by decide), Board.accErrIf]
  split
  · exact (Nat.mod_eq_of_lt (cnt_lt ..)).symm
  · exact cnt_accErr ..

theorem cnt_report_levelWrites : (b.report page off cause mask src).cnt Pg.mod Cn.modLevelWrites =
    (b.cnt Pg.mod Cn.modLevelWrites + if mask = 0 then 0 else 1) % 2 ^ 64 := by
  rw [Board.report, ← (accErrIf_keeps b (page := page) (off := off) (cause := cause) src).cnts Pg.mod Cn.modLevelWrites (by decide), Board.levelEvtIf]
  split
  · exact (Nat.mod_eq_of_lt (cnt_lt ..)).symm
  · exact cnt_levelEvt ..

end Sys2Proof.Machine
end

section
/-! SUPPORT. A write that stores fields (R9, R463 to R465): the word that it stores, what follows the store, and its reports. -/
namespace Sys2Proof.Machine

/-! ### Register keys -/

/-- Words at different offsets have different keys, whatever their pages. -/
theorem regKey_ne_of_off {p q o x : Nat} (ho : o < 4096) (hx : x < 4096) (h : o / 4 ≠ x / 4) : regKey p o ≠ regKey q x := by
  simp only [regKey]
  omega

/-- The key of an aligned word gives its page and its offset. -/
theorem regKey_inj {p q o x : Nat} (ho : o < 4096) (hx : x < 4096) (ho4 : o % 4 = 0) (hx4 : x % 4 = 0) (h : regKey p o = regKey q x) :
    p = q ∧ o = x := by
  simp only [regKey] at h
  omega

/-- The registers that reports touch are MOD's read-only words, MOD.EVENT and words of TRC: no writable word elsewhere is one of them. -/
theorem hostRegs_ne_of_writable {page off : Nat} (ho : off < 4096) (ho4 : off % 4 = 0) (hw : wordSort (pageKindOf page) off = .writable)
    (he : off ≠ evtOff) (hk : pageKindOf page ≠ .trc) : ∀ r ∈ hostRegs, regKey r.1 r.2 ≠ regKey page off := by
  have hoff : ∀ r ∈ hostRegs, r.2 < 4096 ∧ r.2 % 4 = 0 := by decide
  have hro : ∀ r ∈ hostRegs, r.2 = evtOff ∨ pageKindOf r.1 = .trc ∨ wordSort (pageKindOf r.1) r.2 = .readOnly := by decide
  intro r hr h
  obtain ⟨hlt, h4⟩ := hoff r hr
  obtain ⟨hp, hx⟩ := regKey_inj hlt ho h4 ho4 h
  rcases hro r hr with h1 | h1 | h1
  · exact he (hx.symm.trans h1)
  · exact hk (hp ▸ h1)
  · rw [hp, hx, hw] at h1
    cases h1

/-! ### A context's LEVEL_PIN and SHARE (R158) -/

theorem pinLater_board (s : State) (page off v : Nat) : (s.pinLater page off v).2.board = s.board := by
  unfold State.pinLater
  split <;> rfl

/-- Only a context's register waits for the boundary. -/
theorem pinLater_of_not_opq {s : State} {page : Nat} (h : pageKindOf page ≠ .opq) (off v : Nat) : s.pinLater page off v = (0, s) := by
  unfold State.pinLater
  rw [if_neg (by simp [h])]

/-! ### What follows a store -/

/-- The registers and counters that follow FAB.SPLIT (R209, R213) and PWR.CAP_LOCAL (R372). -/
def sideRegs : List (Nat × Nat) := [(Pg.fabSpine, F.fabSpinePatternSlots.off), (Pg.fabSpine, F.fabSpineLatBoundCycles.off), (Pg.pwr, 0x10C)] ++ evs [Pg.pwr]
def sideCnts : List (Nat × Nat) := (Pg.pwr, Cn.pwrGlobalCapChanges) :: logCnts

theorem syncSplit_keeps (b : Board) : b.Keeps b.syncSplit sideRegs sideCnts [] :=
  (setFlds_keeps ..).mono (by simp only [List.map]; decide) (by simp)

/-- A store's consequences leave the board alone, or come from a write at 0x100 and touch other words only. RI's drain, the hatband
engines' loops and the trace rings are apart. -/
theorem afterStore_board (s : State) (page off : Nat) (old : Word) (v : Nat) (hk : pageKindOf page ∉ [.hb, .trc])
    (hri : ¬(pageKindOf page = .opq ∧ (off - 0x100) % 64 = 0x24)) :
    (s.afterStore page off old v).board = s.board ∨
      off = 0x100 ∧ s.board.Keeps (s.afterStore page off old v).board sideRegs sideCnts [] := by
  unfold State.afterStore
  split
  case h_1 =>
    split
    · next h => exact .inr ⟨h, syncSplit_keeps _⟩
    · exact .inl rfl
  case h_2 => split <;> exact .inl rfl
  case h_3 hopq => exact .inl (by rw [if_neg fun h => hri ⟨hopq, h.2.2⟩])
  case h_4 hhb => exact absurd hk (by simp [hhb])
  case h_5 htrc => exact absurd hk (by simp [htrc])
  case h_6 =>
    split
    · next h => exact .inr ⟨h, (applyCaps_spec s).2.2.mono (by decide) (by decide)⟩
    · exact .inl rfl
  case h_7 => exact .inl rfl

/-- On every other page nothing follows a store. -/
theorem afterStore_of_plain (s : State) (page off : Nat) (old : Word) (v : Nat)
    (hk : pageKindOf page ∉ [.fabSpine, .tk, .opq, .hb, .trc, .pwrGlobal]) : s.afterStore page off old v = s := by
  unfold State.afterStore
  split
  case h_7 => rfl
  all_goals rename_i h; exact absurd hk (by simp [h])

/-! ### The word that is stored -/

/-- The bits of a word that keep their value: those of a context that is not FREE, of an RWB field outside STANDBY to HELD, of a value
that its rule forbids, and those that wait for the boundary. -/
def State.keptBits (s : State) (page off v : Nat) : Nat :=
  s.ctxLocked page off v ||| (if s.rwbState then 0 else rwbBits (pageKindOf page) off) ||| s.dropped page off v ||| (s.pinLater page off v).1

/-- The cause of a write's access error; 0 for none. -/
def State.storeCause (s : State) (page off v : Nat) : Nat :=
  if s.ctxLocked page off v ≠ 0 then 7 else if (if s.rwbState then 0 else rwbBits (pageKindOf page) off) ≠ 0 then 1
  else if s.dropped page off v ≠ 0 then 2 else 0

/-- The word after the write. -/
def State.storedWord (s : State) (page off v : Nat) : Word :=
  let take := bitsWithout (storedBits (pageKindOf page) off) (s.keptBits page off v)
  (s.board.rd page off &&& ~~~(BitVec.ofNat 32 take)) ||| (BitVec.ofNat 32 v &&& BitVec.ofNat 32 take)

/-- The state after the store and what follows it, before the write's reports. -/
def State.stored (s : State) (src page off v : Nat) : State :=
  ((s.pinLater page off v).2.onBoard (fun b => (b.wr page off (s.storedWord page off v)).dropLatch src page off)).afterStore page off
    (s.board.rd page off) v

theorem storeCause_lt (s : State) (page off v : Nat) : s.storeCause page off v < 16 := by
  unfold State.storeCause
  generalize (if s.rwbState then 0 else rwbBits (pageKindOf page) off) = shut
  split
  · decide
  · split
    · decide
    · split <;> decide

/-- Bit by bit, the stored word is the written one where a field takes the write, and the old one elsewhere. -/
theorem getLsbD_storedWord (s : State) (page off v i : Nat) (hi : i < 32) : (s.storedWord page off v).getLsbD i =
    if (storedBits (pageKindOf page) off).testBit i && !(s.keptBits page off v).testBit i then v.testBit i
    else (s.board.rd page off).getLsbD i := by
  rw [State.storedWord, getLsbD_merge _ _ _ _ hi, testBit_bitsWithout _ _ _ hi]

/-- The model's store: the word, then the access error. -/
theorem storeFields_eq (s : State) (src page off v : Nat) :
    s.storeFields src page off v = (s.stored src page off v).onBoard (fun b => b.accErrIf page off (s.storeCause page off v) src) := by
  have hrd : (s.pinLater page off v).2.board.rd page off = s.board.rd page off := by rw [pinLater_board]
  unfold State.stored State.storedWord
  rw [← hrd]
  unfold Board.accErrIf
  change (if s.storeCause page off v = 0 then _ else _) = _
  split <;> rfl

/-- A write that has passed the gate, to a word of fields that no command reads: the store, then the reports. -/
theorem storeReg_eq (act : Nat → Nat → Nat → State → State) (s : State) (src page off v : Nat)
    (hw : wordSort (pageKindOf page) off = .writable) (hc : isCommand (pageKindOf page) off = false) (he : off ∉ [evtOff, evtEnOff]) :
    s.storeReg act src page off v = (s.stored src page off v).onBoard
      (fun b => b.report page off (s.storeCause page off v) (reservedBits (pageKindOf page) off v) src) := by
  simp only [List.mem_cons, List.not_mem_nil, or_false, not_or] at he
  obtain ⟨hev, hen⟩ := he
  simp only [State.storeReg, hw, hc, hev, hen, Bool.false_eq_true, if_false, storeFields_eq]
  generalize s.stored src page off v = u
  unfold Board.report Board.levelEvtIf
  by_cases hr : reservedBits (pageKindOf page) off v = 0
  · simp only [hr, if_true]
  · simp only [hr, if_false, State.onBoard]

section
variable {s : State} {src page off v : Nat} (hk : pageKindOf page ∉ [.hb, .trc]) (hri : ¬(pageKindOf page = .opq ∧ (off - 0x100) % 64 = 0x24))
include hk hri

/-- What follows the store does not touch the stored word. -/
theorem rd_stored : (s.stored src page off v).board.rd page off = s.storedWord page off v := by
  unfold State.stored
  rcases afterStore_board _ page off (s.board.rd page off) v hk hri with h | ⟨h0, h⟩
  · rw [h]
    exact rd_wr_same ..
  · have hne : ∀ r ∈ sideRegs, r.2 < 4096 ∧ r.2 / 4 ≠ 0x100 / 4 := by decide
    rw [h.rd page off fun r hr => by subst h0; exact regKey_ne_of_off (hne r hr).1 (by decide) (hne r hr).2]
    exact rd_wr_same ..

/-- A store counts nothing but CAP_CHANGES and what the logs count. -/
theorem cnt_stored (p o : Nat) (hc : ∀ c ∈ sideCnts, cntKey c.1 c.2 ≠ cntKey p o) :
    (s.stored src page off v).board.cnt p o = s.board.cnt p o := by
  have hpin : (s.pinLater page off v).2.board.cnt p o = s.board.cnt p o := by rw [pinLater_board]
  unfold State.stored
  rcases afterStore_board _ page off (s.board.rd page off) v hk hri with h | ⟨-, h⟩
  · rw [h]
    exact hpin
  · rw [h.cnts p o hc]
    exact hpin

end

/-- On a plain page a store changes the word and the writer's latch alone. -/
theorem stored_of_plain (s : State) (src page off v : Nat) (hk : pageKindOf page ∉ [.fabSpine, .tk, .opq, .hb, .trc, .pwrGlobal]) :
    s.stored src page off v = s.onBoard (fun b => (b.wr page off (s.storedWord page off v)).dropLatch src page off) := by
  rw [State.stored, afterStore_of_plain _ _ _ _ _ hk, pinLater_of_not_opq (by simp_all)]

/-! ### The count of the write comes first -/

theorem counted_storeCause (s : State) (page off v : Nat) : s.counted.storeCause page off v = s.storeCause page off v := rfl

theorem counted_keptBits (s : State) (page off v : Nat) : s.counted.keptBits page off v = s.keptBits page off v := by
  have hpin : (s.counted.pinLater page off v).1 = (s.pinLater page off v).1 := by
    simp only [State.pinLater, apply_ite Prod.fst]
    rfl
  rw [State.keptBits, hpin]
  rfl

theorem counted_storedWord (s : State) (page off v : Nat) : s.counted.storedWord page off v = s.storedWord page off v := by
  rw [State.storedWord, counted_keptBits]
  rfl

/-! ### REGISTER_WRITE -/

/-- What a register write that reaches a writable word of fields does: it is counted, stored and reported. -/
theorem exec_registerWrite_stores {s : State} {l : Link} {page off v : Nat} (hm : s.mayWrite l page) (hp : page < 1024) (ho : off < 4096)
    (ho4 : off % 4 = 0) (hv : v < 2 ^ 32) (hx : isMsix page = false) (hw : wordSort (pageKindOf page) off = .writable)
    (hc : isCommand (pageKindOf page) off = false) (he : off ∉ [evtOff, evtEnOff]) :
    exec (.registerWrite l (4096 * page + off) 4 v) s = done s ((s.counted.stored (linkIdx l) page off v).onBoard
      (fun b => b.report page off (s.storeCause page off v) (reservedBits (pageKindOf page) off v) (linkIdx l))) := by
  have haddr : (4096 * page + off) % 2 ^ 22 = 4096 * page + off := Nat.mod_eq_of_lt (by omega)
  have hpage : (4096 * page + off) / 4096 = page := by omega
  have hoff : (4096 * page + off) % 4096 = off := by omega
  have hown : (s.board.owner == some (linkIdx l)) = true := by simp [hm.2.2.1]
  have hev : (off == evtOff) = false := by simp_all
  change done s (bar0Write l (4096 * page + off) 4 v s) = _
  congr 1
  simp only [bar0Write, haddr, hpage, hoff, ho4, and_self, if_true, Nat.mod_eq_of_lt hv, write32, hown, hev, hx, Bool.false_and,
    Bool.true_eq_false, false_and, and_false, if_false]
  exact (hostWrite_reaches hm off _).trans (storeReg_eq _ _ _ _ _ _ hw hc he)

/-! ### The board after the write -/

section
variable {s : State} {page off v : Nat} (cause mask src : Nat) (hk : pageKindOf page ∉ [.hb, .trc])
  (hri : ¬(pageKindOf page = .opq ∧ (off - 0x100) % 64 = 0x24))
include hk hri

/-- The reports leave the stored word as it is. -/
theorem rd_report_stored (ho : off < 4096) (ho4 : off % 4 = 0) (hw : wordSort (pageKindOf page) off = .writable) (he : off ≠ evtOff) :
    ((s.counted.stored src page off v).board.report page off cause mask src).rd page off = s.storedWord page off v := by
  have htrc : pageKindOf page ≠ .trc := fun h => hk (by simp [h])
  rw [(report_keeps _ src).rd page off (hostRegs_ne_of_writable ho ho4 hw he htrc), rd_stored hk hri, counted_storedWord]

theorem cnt_report_stored_accessErrors :
    ((s.counted.stored src page off v).board.report page off cause mask src).cnt Pg.mod Cn.modAccessErrors =
      (s.board.cnt Pg.mod Cn.modAccessErrors + if cause = 0 then 0 else 1) % 2 ^ 64 := by
  rw [cnt_report_accessErrors, cnt_stored hk hri _ _ (by decide), (counted_keeps s).cnts _ _ (by decide)]

theorem cnt_report_stored_levelWrites :
    ((s.counted.stored src page off v).board.report page off cause mask src).cnt Pg.mod Cn.modLevelWrites =
      (s.board.cnt Pg.mod Cn.modLevelWrites + if mask = 0 then 0 else 1) % 2 ^ 64 := by
  rw [cnt_report_levelWrites, cnt_stored hk hri _ _ (by decide), (counted_keeps s).cnts _ _ (by decide)]

end

/-- On a plain page the write changes, beside the latch, the word, the report registers and the counters of host writes. -/
theorem report_stored_keeps (s : State) {src page off v : Nat} (cause mask : Nat)
    (hk : pageKindOf page ∉ [.fabSpine, .tk, .opq, .hb, .trc, .pwrGlobal]) :
    ({ s.board with latch := ((s.counted.stored src page off v).board.report page off cause mask src).latch } : Board).Keeps
      ((s.counted.stored src page off v).board.report page off cause mask src) ((page, off) :: hostRegs) hostCnts [] := by
  rw [(report_keeps _ src).latch, stored_of_plain _ _ _ _ _ hk]
  refine Board.Keeps.trans0 ?_ ((report_keeps _ src).mono (by simp) (by simp))
  exact ((inc_keeps _ Pg.mod Cn.modBar0Writes 1).mono (by simp) (by simp [hostCnts])).trans0
    ((wr_keeps _ page off (s.counted.storedWord page off v)).mono (by simp) (by simp))

/-- Settles O24: the write is counted, stored and reported; the reports keep the stored word, and the store keeps the reports' counters. -/
theorem registersStoreTheirFields : Obligations.RegistersStoreTheirFields := by
  intro s l page off v hm hp ho ho4 hv hx hw hc he hk hri
  have hev : off ≠ evtOff := fun h => he (by simp [h])
  have hbits : ∀ i < 32, (((s.counted.stored (linkIdx l) page off v).board.report page off (s.storeCause page off v)
      (reservedBits (pageKindOf page) off v) (linkIdx l)).rd page off).getLsbD i =
        if (storedBits (pageKindOf page) off).testBit i && !(s.keptBits page off v).testBit i then v.testBit i
        else (s.board.rd page off).getLsbD i := fun i hi => by
    rw [rd_report_stored _ _ _ hk hri ho ho4 hw hev, getLsbD_storedWord _ _ _ _ _ hi]
  refine completes_done (exec_registerWrite_stores hm hp ho ho4 hv hx hw hc he)
    ⟨hbits, report_accErr _ _ hp ho (storeCause_lt ..), cnt_report_stored_accessErrors _ _ _ hk hri,
      report_levelEvt _ _ hp ho (reservedBits_lt ..), cnt_report_stored_levelWrites _ _ _ hk hri, fun hplain => ?_⟩
  have hk' : pageKindOf page ∉ [.fabSpine, .tk, .opq, .hb, .trc, .pwrGlobal] := by simp_all
  refine ⟨?_, report_stored_keeps s _ _ hk'⟩
  simp only [stored_of_plain _ _ _ _ _ hk', State.counted, State.onBoard]

end Sys2Proof.Machine
end

section
/-! SUPPORT. A CRC by its published parameters and the same CRC with its register mirrored (02: R50; 10: R290). -/
namespace Sys2Proof.Machine

/-! ### Mirrored numbers -/

theorem mirrored_succ (n v : Nat) : mirrored (n + 1) v = 2 ^ n * (v.testBit 0).toNat + mirrored n (v / 2) := by
  have hrest (i : Nat) : n + 1 - 1 - (i + 1) = n - 1 - i := by omega
  rw [mirrored, mirrored, List.range_succ_eq_map, List.map_cons, List.sum_cons, List.map_map]
  simp only [Function.comp_def, Nat.succ_eq_add_one, Nat.testBit_succ, hrest]
  cases v.testBit 0 <;> simp

theorem mirrored_lt (n v : Nat) : mirrored n v < 2 ^ n := by
  induction n generalizing v with
  | zero => simp [mirrored]
  | succ n ih =>
    have hrest := ih (v / 2)
    have hbit : (v.testBit 0).toNat ≤ 1 := Bool.toNat_le _
    have htop : 2 ^ n * (v.testBit 0).toNat ≤ 2 ^ n := by simpa using Nat.mul_le_mul_left (2 ^ n) hbit
    rw [mirrored_succ, Nat.pow_succ]
    omega

/-- Bit `i` of a mirrored number is the bit as far from the other end. -/
theorem testBit_mirrored (n v i : Nat) : (mirrored n v).testBit i = (decide (i < n) && v.testBit (n - 1 - i)) := by
  induction n generalizing v i with
  | zero => simp [mirrored]
  | succ n ih =>
    rcases Nat.lt_trichotomy i n with h | rfl | h
    · rw [mirrored_succ, Nat.testBit_two_pow_mul_add _ (mirrored_lt n _), ih, show n + 1 - 1 - i = (n - 1 - i) + 1 by omega, Nat.testBit_succ]
      simp [h, Nat.lt_succ_of_lt h]
    · rw [mirrored_succ, Nat.testBit_two_pow_mul_add _ (mirrored_lt i _)]
      cases h : v.testBit 0 <;> simp [h]
    · have hout : (mirrored (n + 1) v).testBit i = false :=
        Nat.testBit_lt_two_pow (Nat.lt_of_lt_of_le (mirrored_lt (n + 1) v) (Nat.pow_le_pow_right (by decide) h))
      simp [hout, show ¬ i < n + 1 by omega]

theorem mirrored_xor (n a b : Nat) : mirrored n (a ^^^ b) = mirrored n a ^^^ mirrored n b := by
  refine Nat.eq_of_testBit_eq fun i => ?_
  simp only [Nat.testBit_xor, testBit_mirrored]
  cases decide (i < n) <;> simp

theorem mirrored_ones (n : Nat) : mirrored n (2 ^ n - 1) = 2 ^ n - 1 := by
  refine Nat.eq_of_testBit_eq fun i => ?_
  simp only [testBit_mirrored, Nat.testBit_two_pow_sub_one]
  by_cases h : i < n
  · simp [h, show n - 1 - i < n by omega]
  · simp [h]

/-- Doubling a register halves its mirror image; what leaves at the top does not show. -/
theorem mirrored_double (n v : Nat) : mirrored n (2 * v) = mirrored n v / 2 := by
  refine Nat.eq_of_testBit_eq fun i => ?_
  rw [Nat.testBit_div_two, testBit_mirrored, testBit_mirrored]
  by_cases h : i + 1 < n
  · rw [show n - 1 - i = (n - 1 - (i + 1)) + 1 by omega, Nat.testBit_succ]
    simp [h, show i < n by omega]
  · rcases Nat.lt_or_ge i n with hi | hi
    · simp [h, show n - 1 - i = 0 by omega]
    · simp [h, Nat.not_lt.mpr hi]

theorem mirrored_mod (n v : Nat) : mirrored n (v % 2 ^ n) = mirrored n v := by
  refine Nat.eq_of_testBit_eq fun i => ?_
  simp only [testBit_mirrored, Nat.testBit_mod_two_pow]
  by_cases h : i < n
  · simp [show n - 1 - i < n by omega]
  · simp [h]

/-- A mirrored byte at the top of a register is the byte at the bottom of the register's mirror image. -/
theorem mirrored_topByte {w b : Nat} (hw : 8 ≤ w) (hb : b < 2 ^ 8) : mirrored w (mirrored 8 b * 2 ^ (w - 8)) = b := by
  refine Nat.eq_of_testBit_eq fun i => ?_
  rw [testBit_mirrored, Nat.testBit_mul_two_pow, testBit_mirrored]
  by_cases h : i < 8
  · rw [show w - 1 - i - (w - 8) = 7 - i by omega, show 8 - 1 - (7 - i) = i by omega]
    simp [show i < w by omega, show w - 8 ≤ w - 1 - i by omega, show 7 - i < 8 by omega]
  · have hbit : b.testBit i = false := Nat.testBit_lt_two_pow (Nat.lt_of_lt_of_le hb (Nat.pow_le_pow_right (by decide) (by omega)))
    simp [hbit]
    omega

/-! ### Shift, byte and string -/

theorem mirrored_crcShift {w : Nat} (hw : 0 < w) (poly r : Nat) :
    mirrored w (crcShift w poly r) = crcBitRefl (mirrored w poly) (mirrored w r) := by
  have htop : mirrored w r % 2 = 1 ↔ r.testBit (w - 1) = true := by
    simpa [hw, Nat.testBit_zero] using congrArg (· = true) (testBit_mirrored w r 0)
  unfold crcShift crcBitRefl
  by_cases h : r.testBit (w - 1) = true
  · rw [if_pos h, if_pos (htop.mpr h), mirrored_xor, mirrored_mod, mirrored_double]
  · rw [if_neg h, if_neg (mt htop.mp h), mirrored_double]

/-- One byte of the register by the parameters, and of its mirror image. -/
theorem mirrored_crcByte {w : Nat} (hw : 8 ≤ w) (poly r : Nat) (b : Byte) :
    mirrored w ((List.range 8).foldl (fun r _ => crcShift w poly r) (r ^^^ mirrored 8 b.toNat * 2 ^ (w - 8))) =
      crcByteRefl (mirrored w poly) (mirrored w r) b.toNat := by
  have hbits : mirrored w r ^^^ b.toNat = mirrored w (r ^^^ mirrored 8 b.toNat * 2 ^ (w - 8)) := by
    rw [mirrored_xor, mirrored_topByte hw b.isLt]
  rw [crcByteRefl, hbits, ← List.foldl_hom (mirrored w) (g₂ := fun r _ => crcBitRefl (mirrored w poly) r)
    fun r _ => (mirrored_crcShift (by omega) poly r).symm]
  rfl

/-- A CRC by its parameters, run on the mirrored register. -/
theorem crcOf_eq_refl {w : Nat} (hw : 8 ≤ w) (poly : Nat) (bs : Bytes) :
    crcOf w poly bs = bs.foldl (fun r b => crcByteRefl (mirrored w poly) r b.toNat) (2 ^ w - 1) ^^^ (2 ^ w - 1) := by
  rw [crcOf, ← List.foldl_hom (mirrored w) (g₂ := fun r (b : Byte) => crcByteRefl (mirrored w poly) r b.toNat)
    fun r b => (mirrored_crcByte hw poly r b).symm, mirrored_ones]

theorem crc64_eq_crcOf (bs : Bytes) : crc64 bs = crcOf 64 0x42F0E1EBA9EA3693 bs := by
  rw [crcOf_eq_refl (by decide), show mirrored 64 0x42F0E1EBA9EA3693 = 0xC96C5795D7870F42 by decide]
  rfl

theorem crc32c_eq_crcOf (bs : Bytes) : crc32c bs = crcOf 32 0x1EDC6F41 bs := by
  rw [crcOf_eq_refl (by decide), show mirrored 32 0x1EDC6F41 = 0x82F63B78 by decide]
  rfl

end Sys2Proof.Machine
end

section
/-! SUPPORT. A flit that fails its check (10_hatband: R290, R293): discarded, counted, and a replay asked for. -/
namespace Sys2Proof.Machine

/-- Asking for a replay changes, of the engine, that it has asked and which class's credit goes next. -/
theorem askReplay_engine (s : State) (e : Nat) :
    ∃ asked crNext, (s.askReplay e).engine e = { s.engine e with asked := asked, crNext := crNext } := by
  unfold State.askReplay
  split
  · exact ⟨_, _, rfl⟩
  · exact ⟨true, ((s.engine e).crNext + 1) % 5, by simp [State.sendIdle, State.sendFlit, State.engine, State.setEngine]⟩

@[simp] theorem askReplay_rxSeq (s : State) (e : Nat) : ((s.askReplay e).engine e).rxSeq = (s.engine e).rxSeq := by
  obtain ⟨_, _, h⟩ := askReplay_engine s e
  rw [h]

@[simp] theorem askReplay_partials (s : State) (e : Nat) : ((s.askReplay e).engine e).partials = (s.engine e).partials := by
  obtain ⟨_, _, h⟩ := askReplay_engine s e
  rw [h]

@[simp] theorem askReplay_groups (s : State) (e : Nat) : (s.askReplay e).net.groups = s.net.groups := by
  unfold State.askReplay
  split <;> rfl

@[simp] theorem askReplay_mem (s : State) (e : Nat) : (s.askReplay e).mem = s.mem := by
  unfold State.askReplay
  split <;> rfl

@[simp] theorem askReplay_cnt (s : State) (e p o : Nat) : (s.askReplay e).board.cnt p o = s.board.cnt p o := by
  unfold State.askReplay
  split <;> rfl

/-- The counters of a flit that fails its check: the open FEC numbers and one failure. -/
def State.countBadFlit (s : State) (e : Nat) : State :=
  s.freeNat.2.freeNat.2.onBoard (fun b => ((b.inc (Pg.hb e) Cn.hbFecCorrected s.freeNat.1).inc (Pg.hb e) Cn.hbFecUncorrectable s.freeNat.2.freeNat.1).inc
    (Pg.hb e) Cn.hbRxCrcFails 1)

theorem countBadFlit_rxCrcFails (s : State) (e : Nat) :
    (s.countBadFlit e).board.cnt (Pg.hb e) Cn.hbRxCrcFails = (s.board.cnt (Pg.hb e) Cn.hbRxCrcFails + 1) % 2 ^ 64 := by
  have hc : cntKey (Pg.hb e) Cn.hbRxCrcFails ≠ cntKey (Pg.hb e) Cn.hbFecCorrected := by
    simp only [cntKey, Cn.hbRxCrcFails, Cn.hbFecCorrected]; omega
  have hu : cntKey (Pg.hb e) Cn.hbRxCrcFails ≠ cntKey (Pg.hb e) Cn.hbFecUncorrectable := by
    simp only [cntKey, Cn.hbRxCrcFails, Cn.hbFecUncorrectable]; omega
  simp only [State.countBadFlit, State.onBoard_board, State.freeNat_board]
  rw [cnt_inc_same, cnt_inc_other _ _ _ _ _ _ hu, cnt_inc_other _ _ _ _ _ _ hc]

/-- What an UP engine does with a flit that fails its check: nothing of the flit is in it. -/
theorem exec_flitReceive_fails {s : State} {e : Nat} {f : Bytes} (hup : s.engUp e = true)
    (hf : crc32c (f.take 12 ++ f.drop 16) ≠ leAt f 12 4) :
    exec (.flitReceive e f) s = done s ((s.countBadFlit e).askReplay e) := by
  have hv : s.board.engState e = Eng.up := by simpa [State.engUp] using hup
  change execFlitReceive e f s = _
  unfold execFlitReceive
  simp only [hv]
  rw [if_neg (fun h => absurd h.1 (by decide)), if_neg (by simp), if_pos (Or.inr hf)]
  rfl

/-- Settles O56: the register of `crcOf` is the mirror image of the model's, and a failing flit's effect is `exec_flitReceive_fails`. -/
theorem checksumsFollowTheirParameters : Obligations.ChecksumsFollowTheirParameters := by
  refine ⟨fun bs => ⟨crc64_eq_crcOf bs, crc32c_eq_crcOf bs⟩, by decide +kernel, fun s e f h _ hup _ _ hf hh => ?_⟩
  rw [← crc32c_eq_crcOf] at hf hh
  have hexec := exec_flitReceive_fails hup hf
  refine ⟨hexec.trans (exec_flitReceive_fails hup hh).symm, completes_done hexec ⟨?_, askReplay_groups .., askReplay_rxSeq .., askReplay_partials .., askReplay_mem ..⟩⟩
  exact (askReplay_cnt ..).trans (countBadFlit_rxCrcFails s e)

/-- An UP engine and two flits of 256 B that fail their check: the hypotheses of O56 hold together. -/
theorem checksumsFollowTheirParameters_witness :
    let s := State.reset.onBoard (fun b => b.setFld (Pg.hb 0) F.hbStatusEngState Eng.up)
    exec (.flitReceive 0 (List.replicate 256 0)) s = exec (.flitReceive 0 (List.replicate 256 1)) s :=
  (checksumsFollowTheirParameters.2.2 _ 0 _ _ (by decide) (by decide +kernel) List.length_replicate List.length_replicate
    (crc32c_eq_crcOf _ ▸ by decide +kernel) (crc32c_eq_crcOf _ ▸ by decide +kernel)).1

end Sys2Proof.Machine
end

section
/-! SUPPORT. What an event of any page leaves alone (R442, R445): every register and counter outside its EVENT register and the page TRC. -/
namespace Sys2Proof.Machine

theorem regKey_page_ne {p q o x : Nat} (ho : o < 4096) (hx : x < 4096) (h : p ≠ q) : regKey p o ≠ regKey q x := by
  simp only [regKey]
  omega

/-- A register is none of those that logging touches, unless its page is TRC. -/
theorem logRegs_ne {q x : Nat} (hq : q ≠ Pg.trc) (hx : x < 4096) : ∀ r ∈ logRegs, regKey r.1 r.2 ≠ regKey q x := by
  have htrc : ∀ r ∈ logRegs, r.1 = Pg.trc ∧ r.2 < 4096 := by decide
  intro r hr
  obtain ⟨hp, ho⟩ := htrc r hr
  exact regKey_page_ne ho hx (hp ▸ hq.symm)

/-- A register of another page, or another word of the event's page, is none of those that the event touches. -/
theorem evReg_ne {p q x : Nat} (hq : q ≠ Pg.trc) (hx : x < 4096) (h : p ≠ q ∨ evtOff / 4 ≠ x / 4) :
    ∀ r ∈ evReg p :: logRegs, regKey r.1 r.2 ≠ regKey q x := by
  have hoff : evtOff < 4096 := by decide
  rintro r (_ | ⟨_, hr⟩)
  · rcases h with hp | ho
    · exact regKey_page_ne hoff hx hp
    · exact regKey_ne_of_off hoff hx ho
  · exact logRegs_ne hq hx r hr

/-- A counter is none of those that logging touches, unless its page is TRC. -/
theorem logCnts_ne {q o : Nat} (hq : q ≠ Pg.trc) (ho : o < 0xC00) : ∀ c ∈ logCnts, cntKey c.1 c.2 ≠ cntKey q o := by
  have htrc : ∀ c ∈ logCnts, c.1 = Pg.trc ∧ c.2 < 0xC00 := by decide
  intro c hc
  obtain ⟨hp, hlt⟩ := htrc c hc
  simp only [cntKey, hp]
  omega

theorem fld_raise_other (b : Board) {p q : Nat} (f : Fld) {g : Fld} (hq : q ≠ Pg.trc) (hg : g.off < 4096) (h : p ≠ q ∨ evtOff / 4 ≠ g.off / 4) :
    (b.raise p f).fld q g = b.fld q g := (raise_keeps ..).fld _ _ (evReg_ne hq hg h)

theorem cnt_raise (b : Board) (p : Nat) (f : Fld) {q o : Nat} (hq : q ≠ Pg.trc) (ho : o < 0xC00) : (b.raise p f).cnt q o = b.cnt q o :=
  (raise_keeps ..).cnts _ _ (logCnts_ne hq ho)

theorem evs_subset {ps qs : List Nat} (h : ps ⊆ qs) : evs ps ⊆ evs qs :=
  List.append_subset.mpr ⟨List.Subset.trans (List.map_subset _ h) (List.subset_append_left ..), List.subset_append_right ..⟩

theorem logRegs_subset_evs (ps : List Nat) : logRegs ⊆ evs ps := List.subset_append_right ..

/-- What an event on a page touches, among what events on `ps` do. -/
theorem raise_keeps_evs (b : Board) {p : Nat} (f : Fld) {ps : List Nat} (h : p ∈ ps) : b.Keeps (b.raise p f) (evs ps) logCnts [] :=
  Board.Keeps.mono (rs := evs [p]) (raise_keeps ..) (evs_subset (by simpa using h)) (List.Subset.refl _)

theorem evBit_raise_self (b : Board) {p : Nat} {f : Fld} (hp : p ≠ Pg.trc) (hf : f.lsb < 32) : (b.raise p f).evBit p f.lsb = true := by
  simp [evBit_raise b p f f.lsb hf hf hp]

end Sys2Proof.Machine
end

section
/-! SUPPORT. A trace record (R447, R448) and a field-defect entry that the log has room for (R402). -/
namespace Sys2Proof.Machine

/-- A trace record touches the page TRC and the trace rings only. -/
theorem trace_keeps (b : Board) (tile unit kind ctx : Nat) (payload : Bytes) : b.Keeps (b.trace tile unit kind ctx payload) logRegs logCnts [] := by
  have count : ∀ (b1 : Board) {o : Nat}, (Pg.trc, o) ∈ logCnts → b1.Keeps (b1.inc Pg.trc o 1) logRegs logCnts [] :=
    fun b1 _ h => (inc_keeps ..).mono (by simp) (mem_logCnts_of h)
  have lost : ∀ b1 : Board, b1.Keeps (b1.setEvent Pg.trc F.trcEventTraceLost.lsb 0) logRegs logCnts [] :=
    fun b1 => (setEvent_keeps ..).mono (by decide) (by simp)
  unfold Board.trace
  simp only
  split
  · exact Board.Keeps.refl ..
  · split
    · exact (count _ (by decide)).trans0 (lost _)
    · have written (ts : List (Nat × TraceRing)) :
          b.Keeps (({ b with traces := ts } : Board).inc Pg.trc Cn.trcTraceRecords 1) logRegs logCnts [] :=
        ((Board.Keeps.refl b _ _).soft ..).trans0 (count _ (by decide))
      split
      · exact ((written _).trans0 (count _ (by decide))).trans0 (lost _)
      · exact written _

/-- What the board shows of a field entry that brings the log to `n` entries: FIELD_APPENDS, FIELD_ENTRY, FIELD_ENTRIES, LOG_NEAR_FULL. -/
def Board.fieldEntered (b : Board) (n : Nat) : Board :=
  let b1 := ((b.inc Pg.fus Cn.fusFieldAppends 1).raise Pg.fus F.fusEventFieldEntry).setFld Pg.fus F.fusFieldEntriesCount n
  if n = logNear then b1.raise Pg.fus F.fusEventLogNearFull else b1

theorem fieldEntered_keeps (b : Board) (n : Nat) :
    b.Keeps (b.fieldEntered n) ((Pg.fus, F.fusFieldEntriesCount.off) :: evs [Pg.fus]) ((Pg.fus, Cn.fusFieldAppends) :: logCnts) [] := by
  have entered : b.Keeps (((b.inc Pg.fus Cn.fusFieldAppends 1).raise Pg.fus F.fusEventFieldEntry).setFld Pg.fus F.fusFieldEntriesCount n)
      ((Pg.fus, F.fusFieldEntriesCount.off) :: evs [Pg.fus]) ((Pg.fus, Cn.fusFieldAppends) :: logCnts) [] :=
    (((inc_keeps ..).mono (by simp) (by simp)).trans0 ((raise_keeps ..).mono (by simp [evs]) (by simp))).trans0
      ((setFld_keeps ..).mono (by simp) (by simp))
  unfold Board.fieldEntered
  simp only
  split
  · exact entered.trans0 ((raise_keeps ..).mono (by simp [evs]) (by simp))
  · exact entered

/-- The entry of a defect, dated with the bring-ups of the module's life. -/
def State.defectOf (s : State) (f : Found) : Defect := ⟨f.kind, f.source, f.unit, f.detail, s.store.lifeBringups⟩

/-- A log with more than one free entry takes the defect, in staging and for the next merge. -/
theorem appendDefect_of_room {s : State} (h : s.store.logCount + 1 < logMax) (f : Found) :
    s.appendDefect f = { s with
      board := s.board.fieldEntered (s.store.logCount + 1)
      bup := { s.bup with sinceMerge := s.bup.sinceMerge ++ [s.defectOf f] }
      store := { s.store with fieldStaged := s.store.fieldStaged ++ [s.defectOf f] } } := by
  have hn : ∀ d : Defect, Store.logCount { s.store with fieldStaged := s.store.fieldStaged ++ [d] } = s.store.logCount + 1 := fun d => by
    simp [Store.logCount, Nat.add_assoc]
  unfold State.appendDefect
  simp only [hn]
  rw [if_neg (by omega), if_neg (by omega)]
  rfl

end Sys2Proof.Machine
end

section
/-! SUPPORT. A class C fault that leads to HELD (14_bringup: R393, R415, R416). -/
namespace Sys2Proof.Machine

/-- The registers that the entry to HELD and its cause touch. -/
def heldRegs : List (Nat × Nat) := [(Pg.bup, 0x010), (Pg.bup, 0x10C)] ++ evs [Pg.bup]

/-- The counters that the entry to HELD touches. -/
def heldCnts : List (Nat × Nat) := (Pg.bup, Cn.bupHeldEntries) :: logCnts

theorem setState_keeps (b : Board) (n : Nat) : b.Keeps (b.setState n) ((Pg.bup, 0x010) :: evs [Pg.bup]) logCnts [] := by
  unfold Board.setState
  split
  · exact Board.Keeps.refl ..
  · exact ((setFld_keeps ..).mono (by decide) (by simp)).trans0 ((raise_keeps ..).mono (by simp [evs]) (by simp))

theorem st_setState (b : Board) {n : Nat} (hn : n < 16) : (b.setState n).st = n := by
  unfold Board.setState
  split
  · assumption
  · exact (fld_raise_other _ _ (by decide) (by decide) (.inr (by decide))).trans
      ((fld_setFld_same _ _ _ _ (by decide)).trans (Nat.mod_eq_of_lt hn))

theorem addCause_keeps (b : Board) (bit : Nat) : b.Keeps (b.addCause bit) heldRegs heldCnts [] := (setFld_keeps ..).mono (by decide) (by simp)

theorem testBit_addCause (b : Board) {bit : Nat} (h : bit < 11) : ((b.addCause bit).fld Pg.bup F.bupHeldCauseCauses).testBit bit = true := by
  rw [Board.addCause, fld_setFld_same _ _ _ _ (by decide), Nat.testBit_mod_two_pow, testBit_setBit]
  simp [F.bupHeldCauseCauses, Fld.width, h]

/-- The entry to HELD leaves HELD_CAUSE as it is. -/
theorem enterHeld_keeps (s : State) :
    s.board.Keeps s.enterHeld.board ((Pg.bup, 0x010) :: evs [Pg.bup]) heldCnts [] :=
  (((setState_keeps ..).mono (by simp) (by simp [heldCnts])).trans0 ((raise_keeps ..).mono (by simp [evs]) (by simp [heldCnts]))).trans0
    ((inc_keeps ..).mono (by simp) (by simp [heldCnts]))

theorem st_enterHeld (s : State) : s.enterHeld.board.st = St.held :=
  (fld_raise_other _ _ (by decide) (by decide) (.inr (by decide))).trans (st_setState _ (by decide))

/-- A class C fault as its EVENT bit and its cause show it, before the module's state answers. -/
def State.faultNoted (s : State) (page : Nat) (f : Fld) : State := s.onBoard (fun b => (b.raiseAs page f.lsb .c).addCause Hc.classC)

theorem classC_of_service {s : State} {page : Nat} {f : Fld} (h : (s.faultNoted page f).inService = true) :
    s.classC page f = (s.faultNoted page f).enterHeld := if_pos h

theorem classC_of_not_service {s : State} {page : Nat} {f : Fld} (h : ¬ (s.faultNoted page f).inService = true) :
    s.classC page f = s.faultNoted page f := if_neg h

@[simp] theorem classC_fab (s : State) (page : Nat) (f : Fld) : (s.classC page f).fab = s.fab := by
  unfold State.classC
  simp only
  split <;> rfl

/-- After its EVENT bit and its cause, a class C fault touches at most what the entry to HELD does. -/
theorem faultNoted_classC_keeps (s : State) (page : Nat) (f : Fld) :
    (s.faultNoted page f).board.Keeps (s.classC page f).board ((Pg.bup, 0x010) :: evs [Pg.bup]) heldCnts [] := by
  by_cases h : (s.faultNoted page f).inService = true
  · rw [classC_of_service h]
    exact enterHeld_keeps _
  · rw [classC_of_not_service h]
    exact Board.Keeps.refl ..

theorem classC_keeps (s : State) (page : Nat) (f : Fld) : s.board.Keeps (s.classC page f).board (evReg page :: heldRegs) heldCnts [] := by
  have hlog : logRegs ⊆ heldRegs := List.subset_append_of_subset_right _ (logRegs_subset_evs _)
  have hheld : (Pg.bup, 0x010) :: evs [Pg.bup] ⊆ heldRegs := by decide
  exact (((raiseAs_keeps ..).mono (List.cons_subset_cons _ hlog) (by simp [heldCnts])).trans0 ((addCause_keeps ..).mono (by simp) (by simp))).trans0
    ((faultNoted_classC_keeps s page f).mono (List.subset_cons_of_subset _ hheld) (by simp))

theorem evBit_classC (s : State) {page : Nat} {f : Fld} (hf : f.lsb < 32) (htrc : page ≠ Pg.trc) (hbup : page ≠ Pg.bup) :
    (s.classC page f).board.evBit page f.lsb = true := by
  have hheld : ∀ r ∈ (Pg.bup, 0x010) :: evs [Pg.bup], regKey r.1 r.2 ≠ regKey page evtOff := by
    rintro r (_ | ⟨_, hr⟩)
    · exact regKey_page_ne (by decide) (by decide) hbup.symm
    · exact evReg_ne htrc (by decide) (.inl hbup.symm) r hr
  have hcause : ∀ r ∈ [(Pg.bup, F.bupHeldCauseCauses.off)], regKey r.1 r.2 ≠ regKey page evtOff := by
    simpa using regKey_page_ne (by decide) (by decide) hbup.symm
  calc (s.classC page f).board.evBit page f.lsb
      = (s.faultNoted page f).board.evBit page f.lsb := (faultNoted_classC_keeps s page f).evBit _ _ hheld
    _ = (s.board.raiseAs page f.lsb .c).evBit page f.lsb := (setFld_keeps ..).evBit _ _ hcause
    _ = true := by simp [evBit_raiseAs _ _ _ _ _ hf hf htrc]

theorem classC_cause (s : State) (page : Nat) (f : Fld) : ((s.classC page f).board.fld Pg.bup F.bupHeldCauseCauses).testBit Hc.classC = true := by
  rw [(faultNoted_classC_keeps s page f).fld _ _ (by decide)]
  exact testBit_addCause _ (by decide)

/-- In SERVICE a class C fault leads to HELD at once. -/
theorem classC_st {s : State} (h : s.board.st = St.service) (page : Nat) (f : Fld) : (s.classC page f).board.st = St.held := by
  have hst : (s.faultNoted page f).board.st = s.board.st :=
    (fld_setFld_key _ _ _ _ _ _ (by decide)).trans
      ((raiseAs_keeps ..).fld _ _ (evReg_ne (by decide) (by decide) (.inr (by decide))))
  rw [classC_of_service (by simp [State.inService, hst, h])]
  exact st_enterHeld _

end Sys2Proof.Machine
end

section
/-! SUPPORT. Hot links and slices, and replays of the seam and of links (06: R193; 07_fabric: R212, R222, R223). -/
namespace Sys2Proof.Machine

/-! ### Hot links and slices (R193, R212) -/

theorem mem_hotWait (s : State) (ws : List Nat) (p : Nat) : p ∈ (s.hotWait ws).fab.hotParts ↔ p ∈ s.fab.hotParts ∨ p ∈ ws := by
  by_cases h : p ∈ s.fab.hotParts <;> simp [State.hotWait, h]

/-- Two fields of a word that share no bit. -/
def Fld.apart (f g : Fld) : Prop := f.msb < g.lsb ∨ g.msb < f.lsb

theorem fld_setFlds_apart (b : Board) (p : Nat) {l : List (Fld × Nat)} {g : Fld} (h : ∀ x ∈ l, Fld.apart x.1 g) :
    (b.setFlds p l).fld p g = b.fld p g := by
  induction l generalizing b with
  | nil => rfl
  | cons x r ih =>
    obtain ⟨hx, hr⟩ := List.forall_mem_cons.mp h
    exact (ih _ hr).trans (fld_setFld_bits _ _ _ _ _ hx)

/-- Fields of a word that share no bit each show the value that they were set to. -/
theorem fld_setFlds_mem (b : Board) (p : Nat) {l : List (Fld × Nat)} (hl : l.Pairwise (fun x y => Fld.apart y.1 x.1))
    (hfit : ∀ x ∈ l, x.1.msb < 32 ∧ x.2 < 2 ^ x.1.width) : ∀ x ∈ l, (b.setFlds p l).fld p x.1 = x.2 := by
  induction l generalizing b with
  | nil => nofun
  | cons y r ih =>
    obtain ⟨hy, hr⟩ := List.pairwise_cons.mp hl
    obtain ⟨⟨hmsb, hval⟩, hfitr⟩ := List.forall_mem_cons.mp hfit
    rintro x (_ | ⟨_, hx⟩)
    · exact (fld_setFlds_apart _ _ hy).trans ((fld_setFld_same _ _ _ _ hmsb).trans (Nat.mod_eq_of_lt hval))
    · exact ih _ hr hfitr x hx

/-- What a page reports of a link or slice that was hot: its counter, the fields that name it, its EVENT bit. -/
def Board.hotReport (b : Board) (page counter : Nat) (names : List (Fld × Nat)) (event : Fld) : Board :=
  ((b.inc page counter 1).setFlds page names).raise page event

section
variable (b : Board) {page counter : Nat} (names : List (Fld × Nat)) {event : Fld}

theorem cnt_hotReport (hp : page ≠ Pg.trc) (hc : counter < 0xC00) :
    (b.hotReport page counter names event).cnt page counter = (b.cnt page counter + 1) % 2 ^ 64 := by
  rw [Board.hotReport, cnt_raise _ _ _ hp hc, cnt_setFlds, cnt_inc_same]

theorem evBit_hotReport (hp : page ≠ Pg.trc) (he : event.lsb < 32) : (b.hotReport page counter names event).evBit page event.lsb = true :=
  evBit_raise_self _ hp he

theorem fld_hotReport (hp : page ≠ Pg.trc) {g : Fld} (hg : g.off < 4096) (hev : evtOff / 4 ≠ g.off / 4) :
    (b.hotReport page counter names event).fld page g = ((b.inc page counter 1).setFlds page names).fld page g :=
  fld_raise_other _ _ hp hg (.inr hev)

theorem hotReport_keeps {off : Nat} (hn : ∀ x ∈ names, x.1.off = off) :
    b.Keeps (b.hotReport page counter names event) ((page, off) :: evs [page]) ((page, counter) :: logCnts) [] := by
  have hnames : names.map (fun x => (page, x.1.off)) ⊆ (page, off) :: evs [page] := by
    intro r hr
    obtain ⟨x, hx, rfl⟩ := List.mem_map.mp hr
    simp [hn x hx]
  exact (((inc_keeps ..).mono (by simp) (by simp)).trans0 ((setFlds_keeps ..).mono hnames (by simp))).trans0
    ((raise_keeps ..).mono (by simp [evs]) (by simp))

end

/-- The state after a hot link or slice, whose waiting partitions are noted, is reported. -/
def State.hotReport (s : State) (ws : List Nat) (page counter : Nat) (names : List (Fld × Nat)) (event : Fld) : State :=
  { s.hotWait ws with board := s.board.hotReport page counter names event }

section
variable (s : State) (sw port sl n : Nat) (ws : List Nat)

/-- A link that was hot for CYCLES cycles is reported; one that was hot for less is not. -/
theorem exec_linkHot :
    exec (.linkHot sw port n ws) s = done s (if n < s.board.fld Pg.fabSpine F.fabSpineHotCfgCycles then s else
      s.hotReport ws Pg.fabSpine Cn.fabSpineLinkHotTicks [(F.fabSpineHotLinkSwitch, sw), (F.fabSpineHotLinkPort, port)] F.fabSpineEventLinkHot) := rfl

/-- A slice that was hot for CYCLES cycles is reported on its tile's page; one that was hot for less is not. -/
theorem exec_sliceHot :
    exec (.sliceHot sl n ws) s = done s (if n < s.board.fld (Pg.slc (sl / 24)) F.slcHotCfgCycles then s else
      s.hotReport ws (Pg.slc (sl / 24)) Cn.slcHotTicks [(F.slcHotLastSlice, sl % 24)] F.slcEventHot) := rfl

end

/-- A hot link or slice is counted, named and reported, the partitions that wait there are noted, and nothing else changes. -/
theorem completes_hotReport {c : Instr} {s : State} {ws : List Nat} {page counter off : Nat} {names : List (Fld × Nat)} {event : Fld}
    (hexec : exec c s = done s (s.hotReport ws page counter names event)) (hp : page ≠ Pg.trc) (hc : counter < 0xC00) (he : event.lsb < 32)
    (ho : off < 4096) (hev : evtOff / 4 ≠ off / 4) (hoff : ∀ x ∈ names, x.1.off = off) (hapart : names.Pairwise (fun x y => Fld.apart y.1 x.1))
    (hfit : ∀ x ∈ names, x.1.msb < 32 ∧ x.2 < 2 ^ x.1.width) :
    Completes c s (fun t => t.board.cnt page counter = (s.board.cnt page counter + 1) % 2 ^ 64 ∧ (∀ x ∈ names, t.board.fld page x.1 = x.2) ∧
      t.board.evBit page event.lsb = true ∧ (∀ p, p ∈ t.fab.hotParts ↔ p ∈ s.fab.hotParts ∨ p ∈ ws) ∧
      { t with board := s.board, fab := { t.fab with hotParts := s.fab.hotParts } } = s ∧
      s.board.Keeps t.board ((page, off) :: evs [page]) ((page, counter) :: logCnts) []) := by
  refine completes_done hexec ⟨cnt_hotReport s.board names hp hc, fun x hx => ?_, evBit_hotReport s.board names hp he, mem_hotWait s ws, rfl,
    hotReport_keeps s.board names hoff⟩
  exact (fld_hotReport s.board names hp (hoff x hx ▸ ho) (hoff x hx ▸ hev)).trans (fld_setFlds_mem _ _ hapart hfit x hx)

/-! ### Replays of a seam flit (R222) -/

/-- Where the replays of a tile's seam group are counted. -/
def seamKey (tile dir grp : Nat) : Nat := (tile * 2 + dir) * 4096 + grp

/-- How often a seam group has replayed in this tick, the present replay included. -/
def State.seamCount (s : State) (key : Nat) : Nat := Tbl.get (fun _ => 0) s.fab.seamReplays key + 1

/-- What the board shows of one seam replay. -/
def Board.seamReplayed (b : Board) (tile grp : Nat) : Board :=
  ((b.inc (Pg.fabTile tile) Cn.fabTileSeamRetries 1).raise (Pg.fabTile tile) F.fabTileEventSeamRetry).trace tile 6 9 0 (toLE 4 grp)

/-- The state after one seam replay, before the defect log. -/
def State.seamReplayed (s : State) (tile dir grp : Nat) : State :=
  { s with
    board := s.board.seamReplayed tile grp
    fab := { s.fab with seamReplays := Tbl.set (fun _ => 0) s.fab.seamReplays (seamKey tile dir grp) (s.seamCount (seamKey tile dir grp)) } }

/-- The defect that a wire's sixteenth replay enters. -/
def seamDefect (tile dir grp wire : Nat) : Found := ⟨5, 4, tile, dir * 2 ^ 31 + grp * 2 ^ 16 + wire⟩

theorem slc_ne_trc (tile : Nat) : Pg.slc tile ≠ Pg.trc := by simp only [Pg.slc, Pg.trc]; omega

theorem fabTile_ne_trc (tile : Nat) : Pg.fabTile tile ≠ Pg.trc := by simp only [Pg.fabTile, Pg.trc]; omega

theorem fabTile_ne_fus (tile : Nat) : Pg.fabTile tile ≠ Pg.fus := by simp only [Pg.fabTile, Pg.fus]; omega

section
variable (b : Board) (tile grp : Nat)

theorem seamReplayed_keeps :
    b.Keeps (b.seamReplayed tile grp) (evs [Pg.fabTile tile]) ((Pg.fabTile tile, Cn.fabTileSeamRetries) :: logCnts) [] :=
  (((inc_keeps ..).mono (by simp) (by simp)).trans0 ((raise_keeps ..).mono (by simp [evs]) (by simp))).trans0
    ((trace_keeps ..).mono (by simp [evs]) (by simp))

theorem evBit_seamReplayed : (b.seamReplayed tile grp).evBit (Pg.fabTile tile) F.fabTileEventSeamRetry.lsb = true := by
  rw [Board.seamReplayed, (trace_keeps ..).evBit _ _ (logRegs_ne (fabTile_ne_trc tile) (by decide))]
  exact evBit_raise_self _ (fabTile_ne_trc tile) (by decide)

theorem cnt_seamReplayed : (b.seamReplayed tile grp).cnt (Pg.fabTile tile) Cn.fabTileSeamRetries =
    (b.cnt (Pg.fabTile tile) Cn.fabTileSeamRetries + 1) % 2 ^ 64 := by
  rw [Board.seamReplayed, (trace_keeps ..).cnts _ _ (logCnts_ne (fabTile_ne_trc tile) (by decide)),
    cnt_raise _ _ _ (fabTile_ne_trc tile) (by decide), cnt_inc_same]

/-- What the board shows of the replay that enters its wire in the log, which then has `n` entries. -/
def Board.seamWireBad (n : Nat) : Board := ((b.seamReplayed tile grp).fieldEntered n).raise (Pg.fabTile tile) F.fabTileEventSeamWireBad

variable (n : Nat)

/-- After the replay itself, entering the wire touches the page FUS and SEAM_WIRE_BAD. -/
theorem seamReplayed_seamWireBad_keeps : (b.seamReplayed tile grp).Keeps (b.seamWireBad tile grp n)
    ((Pg.fus, F.fusFieldEntriesCount.off) :: evs [Pg.fabTile tile, Pg.fus]) ((Pg.fus, Cn.fusFieldAppends) :: logCnts) [] :=
  ((fieldEntered_keeps ..).mono (List.cons_subset_cons _ (evs_subset (by simp))) (by simp)).trans0
    ((raise_keeps_evs _ _ (by simp)).mono (List.subset_cons_of_subset _ (List.Subset.refl _)) (by simp))

theorem seamWireBad_keeps : b.Keeps (b.seamWireBad tile grp n) ((Pg.fus, F.fusFieldEntriesCount.off) :: evs [Pg.fabTile tile, Pg.fus])
    ([(Pg.fabTile tile, Cn.fabTileSeamRetries), (Pg.fus, Cn.fusFieldAppends)] ++ logCnts) [] :=
  ((seamReplayed_keeps ..).mono (List.subset_cons_of_subset _ (evs_subset (by simp))) (by simp)).trans0
    ((seamReplayed_seamWireBad_keeps ..).mono (by simp) (by simp))

theorem evBit_seamWireBad (j : Nat) (hj : j < 32) : (b.seamWireBad tile grp n).evBit (Pg.fabTile tile) j =
    (decide (j = F.fabTileEventSeamWireBad.lsb) || (b.seamReplayed tile grp).evBit (Pg.fabTile tile) j) := by
  have hfus : ∀ r ∈ (Pg.fus, F.fusFieldEntriesCount.off) :: evs [Pg.fus], regKey r.1 r.2 ≠ regKey (Pg.fabTile tile) evtOff := by
    rintro r (_ | ⟨_, hr⟩)
    · exact regKey_page_ne (by decide) (by decide) (fabTile_ne_fus tile).symm
    · exact evReg_ne (fabTile_ne_trc tile) (by decide) (.inl (fabTile_ne_fus tile).symm) r hr
  rw [Board.seamWireBad, evBit_raise _ _ _ _ (by decide) hj (fabTile_ne_trc tile), (fieldEntered_keeps ..).evBit _ _ hfus]

theorem cnt_seamWireBad : (b.seamWireBad tile grp n).cnt (Pg.fabTile tile) Cn.fabTileSeamRetries =
    (b.cnt (Pg.fabTile tile) Cn.fabTileSeamRetries + 1) % 2 ^ 64 := by
  rw [(seamReplayed_seamWireBad_keeps b tile grp n).cnts _ _ ?_, cnt_seamReplayed]
  rintro c (_ | ⟨_, hc⟩)
  · simp only [cntKey, Pg.fus, Pg.fabTile, Cn.fusFieldAppends, Cn.fabTileSeamRetries]
    omega
  · exact logCnts_ne (fabTile_ne_trc tile) (by decide) c hc

end

/-- The state after the replay that enters its wire in the log. -/
def State.seamWireEntered (s : State) (tile dir grp wire : Nat) : State :=
  { s.seamReplayed tile dir grp with
    board := s.board.seamWireBad tile grp (s.store.logCount + 1)
    bup := { s.bup with sinceMerge := s.bup.sinceMerge ++ [s.defectOf (seamDefect tile dir grp wire)] }
    store := { s.store with fieldStaged := s.store.fieldStaged ++ [s.defectOf (seamDefect tile dir grp wire)] } }

/-- Only the sixteenth replay of a group in a tick goes on to the defect log. -/
theorem exec_seamReplay {s : State} (hroom : s.store.logCount + 1 < logMax) (tile dir grp wire : Nat) :
    exec (.seamReplay tile dir grp wire) s =
      done s (if s.seamCount (seamKey tile dir grp) = 16 then s.seamWireEntered tile dir grp wire else s.seamReplayed tile dir grp) := by
  have hlog := appendDefect_of_room (s := s.seamReplayed tile dir grp) hroom (seamDefect tile dir grp wire)
  change done s (if s.seamCount (seamKey tile dir grp) = 16 then
    ((s.seamReplayed tile dir grp).appendDefect (seamDefect tile dir grp wire)).onBoard (fun b => b.raise (Pg.fabTile tile) F.fabTileEventSeamWireBad)
    else s.seamReplayed tile dir grp) = _
  rw [hlog]
  rfl

@[simp] theorem seamReplayed_count (s : State) (tile dir grp : Nat) :
    Tbl.get (fun _ => 0) (s.seamReplayed tile dir grp).fab.seamReplays (seamKey tile dir grp) = s.seamCount (seamKey tile dir grp) :=
  Tbl.get_set_same (fun _ => 0) s.fab.seamReplays (seamKey tile dir grp) (s.seamCount (seamKey tile dir grp))

/-! ### Replays of a link's packet (R223) -/

/-- The state after a link's replay is counted: `n` failed ones in a row. -/
def State.linkReplayed (s : State) (key n : Nat) : State :=
  { s with
    board := s.board.inc Pg.fabSpine Cn.fabSpineLinkRetries 1
    fab := { s.fab with linkFails := Tbl.set (fun _ => 0) s.fab.linkFails key n } }

/-- The link holds its traffic. -/
def State.holdLink (s : State) (key : Nat) : State := { s with fab := { s.fab with linkHeld := s.fab.linkHeld ++ [key] } }

/-- The state after a link's third failed replay in a row. -/
def State.linkFaulted (s : State) (key n : Nat) : State := ((s.linkReplayed key n).holdLink key).classC Pg.fabSpine F.fabSpineEventLinkFault

/-- The failed replays in a row of a link's packet after one more replay (R223). -/
def State.failsAfter (s : State) (key : Nat) (ok : Bool) : Nat := if ok then 0 else Tbl.get (fun _ => 0) s.fab.linkFails key + 1

/-- A link that does not hold its traffic counts a replay; after the third failed one in a row it does, with a class C fault. -/
theorem exec_linkReplay {s : State} {sw port : Nat} (h : s.fab.linkHeld.contains (sw * 32 + port) = false) (ok : Bool) :
    exec (.linkReplay sw port ok) s = done s (
      let key := sw * 32 + port
      if 3 ≤ s.failsAfter key ok then s.linkFaulted key (s.failsAfter key ok) else s.linkReplayed key (s.failsAfter key ok)) := by
  change done s (if s.fab.linkHeld.contains (sw * 32 + port) = true then s else _) = _
  rw [if_neg (by simp only [h, Bool.false_eq_true, not_false_eq_true])]
  rfl

section
variable (s : State) (key n : Nat)

theorem linkReplayed_fails : Tbl.get (fun _ => 0) (s.linkReplayed key n).fab.linkFails key = n := Tbl.get_set_same (fun _ => 0) s.fab.linkFails key n

theorem linkReplayed_cnt : (s.linkReplayed key n).board.cnt Pg.fabSpine Cn.fabSpineLinkRetries = (s.board.cnt Pg.fabSpine Cn.fabSpineLinkRetries + 1) % 2 ^ 64 :=
  cnt_inc_same ..

/-- The class C fault leaves the fabric as the replay left it. -/
theorem linkFaulted_fab : (s.linkFaulted key n).fab = ((s.linkReplayed key n).holdLink key).fab := classC_fab ..

theorem linkFaulted_fails : Tbl.get (fun _ => 0) (s.linkFaulted key n).fab.linkFails key = n := by
  rw [linkFaulted_fab]
  exact linkReplayed_fails ..

theorem linkFaulted_held : (s.linkFaulted key n).fab.linkHeld = s.fab.linkHeld ++ [key] := congrArg Fab.linkHeld (linkFaulted_fab ..)

theorem linkFaulted_cnt : (s.linkFaulted key n).board.cnt Pg.fabSpine Cn.fabSpineLinkRetries = (s.board.cnt Pg.fabSpine Cn.fabSpineLinkRetries + 1) % 2 ^ 64 :=
  ((classC_keeps ..).cnts _ _ (by decide)).trans (linkReplayed_cnt s key n)

theorem linkFaulted_evBit : (s.linkFaulted key n).board.evBit Pg.fabSpine F.fabSpineEventLinkFault.lsb = true :=
  evBit_classC _ (by decide) (by decide) (by decide)

theorem linkFaulted_cause : ((s.linkFaulted key n).board.fld Pg.bup F.bupHeldCauseCauses).testBit Hc.classC = true := classC_cause ..

theorem linkFaulted_st (h : s.board.st = St.service) : (s.linkFaulted key n).board.st = St.held :=
  classC_st (s := (s.linkReplayed key n).holdLink key) h ..

end

/-! ### The obligation -/

/-- Settles O43: a command at a time, by the equation of `exec` for each of its cases and what the board shows of it. -/
theorem linksReplayAndHeat : Obligations.LinksReplayAndHeat := by
  have hspine : Pg.fabSpine ≠ Pg.trc := by decide
  refine fun s => ⟨fun sw port n ws hsw hport hn => ?_, fun sw port n ws hn => ?_, fun sl n ws hsl hn => ?_, fun sl n ws hn => ?_,
    fun tile dir grp wire _ _ _ hroom => ?_, fun sw port ok hfree => ?_⟩
  · -- LINK_HOT for CYCLES cycles
    have hexec := exec_linkHot s sw port n ws
    rw [if_neg (Nat.not_lt.mpr hn)] at hexec
    have hfit : ∀ x ∈ [(F.fabSpineHotLinkSwitch, sw), (F.fabSpineHotLinkPort, port)], x.1.msb < 32 ∧ x.2 < 2 ^ x.1.width := by
      simpa [F.fabSpineHotLinkSwitch, F.fabSpineHotLinkPort, Fld.width] using ⟨Nat.lt_trans hsw (by decide), hport⟩
    obtain ⟨t, ht, hpend, hcnt, hfld, hrest⟩ := completes_hotReport (off := F.fabSpineHotLinkSwitch.off) hexec hspine (by decide) (by decide)
      (by decide) (by decide) (by simp [F.fabSpineHotLinkSwitch, F.fabSpineHotLinkPort]) (by simp [Fld.apart, F.fabSpineHotLinkSwitch, F.fabSpineHotLinkPort])
      hfit
    exact ⟨t, ht, hpend, hcnt, hfld (F.fabSpineHotLinkSwitch, sw) (by simp), hfld (F.fabSpineHotLinkPort, port) (by simp), hrest⟩
  · exact completes_done ((exec_linkHot s sw port n ws).trans (by rw [if_pos hn])) rfl
  · -- SLICE_HOT for CYCLES cycles
    have hexec := exec_sliceHot s sl n ws
    rw [if_neg (Nat.not_lt.mpr hn)] at hexec
    have hfit : ∀ x ∈ [(F.slcHotLastSlice, sl % 24)], x.1.msb < 32 ∧ x.2 < 2 ^ x.1.width := by
      simpa [F.slcHotLastSlice, Fld.width] using Nat.lt_trans (Nat.mod_lt sl (by decide)) (show 24 < 32 by decide)
    obtain ⟨t, ht, hpend, hcnt, hfld, hrest⟩ := completes_hotReport (off := F.slcHotLastSlice.off) hexec (slc_ne_trc _) (by decide) (by decide)
      (by decide) (by decide) (by simp) (by simp) hfit
    exact ⟨t, ht, hpend, hcnt, hfld (F.slcHotLastSlice, sl % 24) (by simp), hrest⟩
  · exact completes_done ((exec_sliceHot s sl n ws).trans (by rw [if_pos hn])) rfl
  · -- SEAM_REPLAY: the sixteenth, or another
    have hexec := exec_seamReplay hroom tile dir grp wire
    by_cases hm : s.seamCount (seamKey tile dir grp) = 16
    · rw [if_pos hm] at hexec
      have hevents := evBit_seamWireBad s.board tile grp (s.store.logCount + 1)
      refine completes_done hexec ⟨seamReplayed_count .., (hevents _ (by decide)).trans (by simp [evBit_seamReplayed]), cnt_seamWireBad .., ?_,
        fun _ => (hevents _ (by decide)).trans rfl, rfl, seamWireBad_keeps ..⟩
      exact congrArg (s.bup.sinceMerge ++ ·) (if_pos hm).symm
    · rw [if_neg hm] at hexec
      refine completes_done hexec ⟨seamReplayed_count .., evBit_seamReplayed .., cnt_seamReplayed .., ?_, fun h => absurd h hm, rfl,
        (seamReplayed_keeps ..).mono (List.subset_cons_of_subset _ (evs_subset (by simp))) (by simp)⟩
      exact ((congrArg (s.bup.sinceMerge ++ ·) (if_neg hm)).trans (List.append_nil _)).symm
  · -- LINK_REPLAY: the third failed one, or another
    have hexec := exec_linkReplay hfree ok
    by_cases h3 : 3 ≤ s.failsAfter (sw * 32 + port) ok
    · cases ok with
      | true => exact absurd h3 (show ¬ 3 ≤ 0 by decide)
      | false =>
        rw [if_pos h3] at hexec
        exact completes_done hexec ⟨linkFaulted_cnt .., nofun, fun _ => linkFaulted_fails .., fun h => h.elim nofun fun hlt => absurd h3 (Nat.not_le.mpr hlt),
          fun _ _ => ⟨linkFaulted_held .., linkFaulted_evBit .., linkFaulted_cause .., linkFaulted_st _ _ _⟩⟩
    · rw [if_neg h3] at hexec
      refine completes_done hexec ⟨linkReplayed_cnt .., ?_, ?_, fun _ => ⟨rfl, rfl, inc_keeps ..⟩, ?_⟩
      · rintro rfl
        exact linkReplayed_fails ..
      · rintro rfl
        exact linkReplayed_fails ..
      · rintro rfl h
        exact absurd h h3

/-- A module in SERVICE, one of whose links has failed two replays in a row. -/
def State.twiceFailed : State :=
  { State.reset with
    board := State.reset.board.setFld Pg.bup F.bupStatusState St.service
    fab := { State.reset.fab with linkFails := [(32, 2)] } }

/-- The hypotheses of O43's last clause hold together: the third failed replay leads to HELD. -/
theorem linksReplayAndHeat_witness :
    Completes (.linkReplay 1 0 false) State.twiceFailed (fun t => t.fab.linkHeld = [32] ∧ t.board.st = St.held) := by
  obtain ⟨-, -, -, -, -, hlink⟩ := linksReplayAndHeat State.twiceFailed
  obtain ⟨t, ht, hpend, -, -, -, -, hthird⟩ := hlink 1 0 false (by decide)
  obtain ⟨hheld, -, -, hst⟩ := hthird rfl (by decide)
  exact ⟨t, ht, hpend, hheld, hst (by decide +kernel)⟩

end Sys2Proof.Machine
end
